-- ==== Sys2Proof/Word.lean ====
section
/-! DEFINITION. The word types of the block: the 64-bit bus word, the 32-bit block address, the byte, and
the 64-bit pattern of a binary64 number (`00_scope.md` R8, R9; `20_memory.md` R70). -/

namespace Sys2Proof

/-- One byte of a table or of a byte sequence (R11). -/
abbrev Byte := BitVec 8

/-- One 64-bit bus word (R70). -/
abbrev Word := BitVec 64

/-- A block-relative byte address (R70). -/
abbrev Addr := BitVec 32

/-- A stored 32-bit unsigned register (R21, type `u32`). -/
abbrev U32 := BitVec 32

/-- The 64-bit pattern of an IEEE 754 binary64 number (R9, R104). -/
abbrev F64 := BitVec 64

/-- A state of the noise generator, coded as a natural number (R129; log 6). -/
abbrev NoiseState := Nat

end Sys2Proof
end

