-- ==== Sys2Proof/Syntax.lean ====
section
/-! DEFINITION. The nine commands of PSC-1 (`30_encoding.md` R102) and the raw fields of the command word
(R100). A command has no operand field and no immediate. -/

namespace Sys2Proof

/-- One constructor per row of the opcode map R102. -/
inductive Instr where
  /-- ENV, opcode 0x01: the envelope generator (R150). -/
  | env
  /-- TONE, opcode 0x02: the periodic tone synthesizer (R160). -/
  | tone
  /-- KICK, opcode 0x03: the kick voice (R171). -/
  | kick
  /-- SNARE, opcode 0x04: the snare voice (R172). -/
  | snare
  /-- HAT, opcode 0x05: the hi-hat voice (R173). -/
  | hat
  /-- SEQ, opcode 0x06: the step sequencer and mixer (R190). -/
  | seq
  /-- PCMW, opcode 0x07: the linear PCM writer (R220). -/
  | pcmw
  /-- PNGE, opcode 0x08: the raster container encoder (R230). -/
  | pnge
  /-- SEED, opcode 0x09: reseeding of the noise source (R174). -/
  | seed
  deriving DecidableEq, Repr

/-- The three fields of format C (R100). -/
structure CommandFields where
  /-- Bits 7:0, the opcode. -/
  opc : BitVec 8
  /-- Bits 31:8, reserved, must be 0. -/
  rsv0 : BitVec 24
  /-- Bits 63:32, reserved, must be 0. -/
  rsv1 : BitVec 32
  deriving DecidableEq, Repr

end Sys2Proof
end

