-- ==== Sys2Proof/WellFormed.lean ====
section
/-! DEFINITION. Which raw command words are well formed (`30_encoding.md` R100, R101). An `Instr` has no
field, so every `Instr` is well formed; the three checks are those on the raw fields of format C. -/

namespace Sys2Proof

/-- Check 1 (R100): RSV0, bits 31:8, must be 0. -/
def CommandFields.rsv0Zero (c : CommandFields) : Bool := c.rsv0 == 0

/-- Check 2 (R100): RSV1, bits 63:32, must be 0. -/
def CommandFields.rsv1Zero (c : CommandFields) : Bool := c.rsv1 == 0

/-- Check 3 (R101, R102): OPC is one of the nine opcodes 0x01 to 0x09. -/
def CommandFields.opcodeAssigned (c : CommandFields) : Bool := 1 ≤ c.opc.toNat && c.opc.toNat ≤ 9

/-- A command word is well formed when it passes the three checks (R101). -/
def CommandFields.wellFormed (c : CommandFields) : Bool :=
  c.rsv0Zero && c.rsv1Zero && c.opcodeAssigned

/-- The opcode of a command (R102). -/
def Instr.opcode : Instr → BitVec 8
  | .env => 0x01
  | .tone => 0x02
  | .kick => 0x03
  | .snare => 0x04
  | .hat => 0x05
  | .seq => 0x06
  | .pcmw => 0x07
  | .pnge => 0x08
  | .seed => 0x09

/-- The raw fields of a command's word: its opcode, every reserved bit 0 (R100). -/
def Instr.fields (i : Instr) : CommandFields := { opc := i.opcode, rsv0 := 0, rsv1 := 0 }

/-- A command is well formed when its raw fields are; R100 gives it no other part. -/
def Instr.wellFormed (i : Instr) : Bool := i.fields.wellFormed

end Sys2Proof
end

