-- ==== Sys2Proof/Decode.lean ====
section
/-! DEFINITION. The decoder of the 64-bit command word, total, rejecting by name, and the encoder
(`30_encoding.md` R100 to R103). The command word is one bus word; the bus has no byte order (R78). -/

namespace Sys2Proof

/-- Why a command word is illegal (R101). -/
inductive DecodeReject where
  /-- A bit of 63:8 is 1 (R101: `d[63:8] ≠ 0`). -/
  | reservedBits
  /-- `d[7:0]` is 0x00 or 0x0A to 0xFF (R101). -/
  | unassignedOpcode
  deriving DecidableEq, Repr

/-- The raw fields of a word (R100). -/
def commandFields (d : Word) : CommandFields :=
  { opc := d.extractLsb' 0 8, rsv0 := d.extractLsb' 8 24, rsv1 := d.extractLsb' 32 32 }

/-- The opcode map R102, read from bits 7:0. -/
def decodeOpcode (opc : BitVec 8) : Except DecodeReject Instr :=
  match opc.toNat with
  | 1 => .ok .env
  | 2 => .ok .tone
  | 3 => .ok .kick
  | 4 => .ok .snare
  | 5 => .ok .hat
  | 6 => .ok .seq
  | 7 => .ok .pcmw
  | 8 => .ok .pnge
  | 9 => .ok .seed
  | _ => .error .unassignedOpcode

/-- The command a 64-bit word stands for, or why it is illegal (R100, R101). -/
def decode (d : Word) : Except DecodeReject Instr :=
  if (commandFields d).rsv0Zero && (commandFields d).rsv1Zero then
    decodeOpcode (commandFields d).opc
  else .error .reservedBits

/-- The word of raw fields: `{rsv1, rsv0, opc}` (R8, R100). -/
def wordOfFields (c : CommandFields) : Word := c.rsv1 ++ c.rsv0 ++ c.opc

/-- The word of a command: opcode in bits 7:0, every other bit 0 (R100, R102). -/
def encode (i : Instr) : Word := wordOfFields i.fields

/-- The instruction the decoder reads from a command whose table bits are `w`; the bits above `nbits` are 0. -/
def decodeTableWord (nbits w : Nat) : Option Instr :=
  match decode (BitVec.ofNat 64 (w % 2 ^ nbits)) with
  | .ok i => some i
  | .error _ => none

end Sys2Proof
end

