-- ==== Sys2Proof/Config.lean ====
section
/-! DEFINITION. What an implementation fixes and the spec leaves open: the six capacities (`00_scope.md` R5),
the function parameters SIN, NOISE and COMPRESS (R6) and the unspecified table contents (`10_state.md` R54).
The functions are OPAQUE constants without a body: nothing can evaluate them or prove a value of theirs. The
laws a claim may assume of them are put on top in `Machine/Params.lean` (log 4, 6, 7). -/

namespace Sys2Proof

/-- The six capacity parameters (R5). -/
structure Caps where
  /-- MAX_NOTES: entries in each of MEL and BASS. -/
  maxNotes : Nat
  /-- MAX_DRUM: entries in DRUM. -/
  maxDrum : Nat
  /-- MAX_SAMPLES: entries in SMP. -/
  maxSamples : Nat
  /-- MAX_PIX: bytes in PIX. -/
  maxPix : Nat
  /-- MAX_ONSETS: entries in each onset list. -/
  maxOnsets : Nat
  /-- MAX_OUT: bytes in OUT. -/
  maxOut : Nat
  deriving DecidableEq, Repr

/-- The constraint column of R5. -/
def Caps.wf (c : Caps) : Bool :=
  1 ≤ c.maxNotes && c.maxNotes ≤ 2 ^ 24 &&
  1 ≤ c.maxDrum && c.maxDrum ≤ 2 ^ 25 &&
  1 ≤ c.maxSamples && c.maxSamples ≤ 2 ^ 25 &&
  4 ≤ c.maxPix && c.maxPix ≤ 2 ^ 25 &&
  1 ≤ c.maxOnsets && c.maxOnsets ≤ 2 ^ 25 &&
  57 ≤ c.maxOut && c.maxOut ≤ 2 ^ 25

/-- The reference configuration of R5. -/
def Caps.reference : Caps :=
  { maxNotes := 1024, maxDrum := 1024, maxSamples := 4194304, maxPix := 1048576,
    maxOnsets := 4096, maxOut := 16777216 }

/-- Which conforming implementation of a function parameter of R6 is built in: the reference instance of the
spec, or the implementation numbered `k`, of which only the laws are known (log 3). -/
inductive Impl where
  | reference
  | other (k : Nat)
  deriving DecidableEq, Repr

/-- What a block is built with: every parameter of R5 and R6, as plain data (log 3). -/
structure Build where
  caps : Caps
  sin : Impl
  noise : Impl
  compress : Impl
  deriving DecidableEq, Repr

/-- The configuration the test vectors of the spec assume (R5, R6): reference capacities and instances. -/
def Build.reference : Build :=
  { caps := Caps.reference, sin := .reference, noise := .reference, compress := .reference }

/-- SIN of implementation `k` before the laws of R127 (U2; log 4). FREE VALUE. -/
opaque Config.sinRaw : Nat → F64 → F64

/-- NOISE.seed of implementation `k` (R129, N3; U3; log 6). FREE VALUE. -/
opaque Config.noiseSeed : Nat → NoiseState

/-- NOISE.next of implementation `k` before law N2 (R129; U3; log 6). FREE VALUE. -/
opaque Config.noiseNextRaw : Nat → NoiseState → NoiseState × F64

/-- COMPRESS of implementation `k` before law Z2 (R236; U4; log 7). FREE VALUE. -/
opaque Config.compressRaw : Nat → List Byte → List Byte

/-- The byte a table location holds that nothing has written since reset number `n` (R54; U1, U7; log 8).
FREE VALUE. -/
opaque Config.unwritten : Nat → Nat → Byte

/-- EPS (R6, R151): 1e-9. -/
def Config.eps : F64 := 0x3E112E0BE826D695#64

end Sys2Proof
end

