-- ==== Sys2Proof/Machine/Map.lean ====
section
/-! DEFINITION. The address map of the block (`20_memory.md` R73) and the register map (`10_state.md` R21). -/

namespace Sys2Proof.Machine

/-- The 24 registers, in the order of their offsets (R21). -/
inductive Reg where
  | cmd | status | finfo | result | tIn | envA | envD | envS | envR | envT | bpm | srate | loops
  | phraseLen | drumLen | pixW | pixH | pixLen | smpLen | outLen | nK | nS | nH | id
  deriving DecidableEq, Repr

/-- The nine tables (R20, R39 to R46). -/
inductive Table where
  | mel | bass | drum | pix | smp | out | onsK | onsS | onsH
  deriving DecidableEq, Repr

/-- What the host may do with a register (R21, access column). -/
inductive Access where
  /-- RW: the host reads and writes. -/
  | readWrite
  /-- R: the host reads; a write is refused. -/
  | readOnly
  /-- W: the host writes; a read returns 0. -/
  | writeOnly
  /-- R/W1C: the host reads; writing 1 clears. -/
  | writeOneToClear
  deriving DecidableEq, Repr

/-- What stands at an address (R73). -/
inductive Location where
  | reg (r : Reg)
  | elem (t : Table) (w : Nat)
  deriving DecidableEq, Repr

/-- The register at word index `w` of region 0, that is at byte offset 8·w (R21, R73). -/
def regAt (w : Nat) : Option Reg :=
  match w with
  | 0 => some .cmd
  | 1 => some .status
  | 2 => some .finfo
  | 3 => some .result
  | 4 => some .tIn
  | 5 => some .envA
  | 6 => some .envD
  | 7 => some .envS
  | 8 => some .envR
  | 9 => some .envT
  | 10 => some .bpm
  | 11 => some .srate
  | 12 => some .loops
  | 13 => some .phraseLen
  | 14 => some .drumLen
  | 15 => some .pixW
  | 16 => some .pixH
  | 17 => some .pixLen
  | 18 => some .smpLen
  | 19 => some .outLen
  | 20 => some .nK
  | 21 => some .nS
  | 22 => some .nH
  | 23 => some .id
  | _ => none

/-- The byte offset of a register (R21). -/
def regOffset : Reg → Nat
  | .cmd => 0x000
  | .status => 0x008
  | .finfo => 0x010
  | .result => 0x018
  | .tIn => 0x020
  | .envA => 0x028
  | .envD => 0x030
  | .envS => 0x038
  | .envR => 0x040
  | .envT => 0x048
  | .bpm => 0x050
  | .srate => 0x058
  | .loops => 0x060
  | .phraseLen => 0x068
  | .drumLen => 0x070
  | .pixW => 0x078
  | .pixH => 0x080
  | .pixLen => 0x088
  | .smpLen => 0x090
  | .outLen => 0x098
  | .nK => 0x0A0
  | .nS => 0x0A8
  | .nH => 0x0B0
  | .id => 0x0B8

/-- The access column of R21. -/
def regAccess : Reg → Access
  | .cmd => .writeOnly
  | .status => .writeOneToClear
  | .finfo | .result | .outLen | .nK | .nS | .nH | .id => .readOnly
  | .tIn | .envA | .envD | .envS | .envR | .envT | .bpm | .srate | .loops | .phraseLen | .drumLen
  | .pixW | .pixH | .pixLen | .smpLen => .readWrite

/-- The region number `addr[31:28]` of a table (R73). -/
def tableRegion : Table → Nat
  | .mel => 1
  | .bass => 2
  | .drum => 3
  | .pix => 4
  | .smp => 5
  | .out => 6
  | .onsK => 7
  | .onsS => 8
  | .onsH => 9

/-- The table of a region; regions 0xA to 0xF have none (R73, R75). -/
def tableAt (region : Nat) : Option Table :=
  match region with
  | 1 => some .mel
  | 2 => some .bass
  | 3 => some .drum
  | 4 => some .pix
  | 5 => some .smp
  | 6 => some .out
  | 7 => some .onsK
  | 8 => some .onsS
  | 9 => some .onsH
  | _ => none

/-- The width of one element in bits (R40 to R46). -/
def tableBits : Table → Nat
  | .mel | .bass | .onsK | .onsS | .onsH => 64
  | .drum => 3
  | .pix | .out => 8
  | .smp => 16

/-- The bytes one element is stored in (log 9). -/
def tableBytes : Table → Nat
  | .mel | .bass | .onsK | .onsS | .onsH => 8
  | .drum | .pix | .out => 1
  | .smp => 2

/-- The capacity of a region in words (R73). -/
def tableWords (c : Caps) : Table → Nat
  | .mel | .bass => 2 * c.maxNotes
  | .drum => c.maxDrum
  | .pix => c.maxPix
  | .smp => c.maxSamples
  | .out => c.maxOut
  | .onsK | .onsS | .onsH => c.maxOnsets

/-- Whether the host may write a table (R73, host access column). -/
def tableHostWrites : Table → Bool
  | .mel | .bass | .drum | .pix | .smp => true
  | .out | .onsK | .onsS | .onsH => false

/-- The block address of word `w` of a table: region base plus 8·w (R73). -/
def wordAddr (t : Table) (w : Nat) : Nat := tableRegion t * 2 ^ 28 + 8 * w

/-- The word index of `MEL[k].FREQ` and `BASS[k].FREQ` (R40, R41). -/
def freqWord (k : Nat) : Nat := 2 * k

/-- The word index of `MEL[k].BEATS` and `BASS[k].BEATS` (R40, R41). -/
def beatsWord (k : Nat) : Nat := 2 * k + 1

/-- `addr[31:28]` (R73). -/
def addrRegion (a : Addr) : Nat := (a.extractLsb' 28 4).toNat

/-- `addr[27:3]` (R73). -/
def addrWord (a : Addr) : Nat := (a.extractLsb' 3 25).toNat

/-- `addr[2:0]` is 0 (R74). -/
def addrAligned (a : Addr) : Bool := a.extractLsb' 0 3 == 0

/-- What stands at an address, or nothing: misaligned (R74), a region or word index that does not exist (R75). -/
def locate (c : Caps) (a : Addr) : Option Location :=
  if addrAligned a then
    if addrRegion a = 0 then (regAt (addrWord a)).map .reg
    else
      match tableAt (addrRegion a) with
      | some t => if addrWord a < tableWords c t then some (.elem t (addrWord a)) else none
      | none => none
  else none

end Sys2Proof.Machine
end

