-- ==== Sys2Proof/Machine/Float.lean ====
section
/-! DEFINITION. IEEE 754 binary64 arithmetic on 64-bit patterns (`40_numerics.md` R120, `30_encoding.md` R104).

Every finite binary64 number is an integer multiple of 2^-1074. The operations convert their operands to that
integer (`fUnits`), compute exactly on integers, and round once, to nearest with ties to even (`fRound`). -/

namespace Sys2Proof.Machine

/-- 1.0 in units of 2^-1074. -/
def oneUnits : Nat := 2 ^ 1074

/-- The exponent and fraction bits 62:0 of a pattern, as a number (R104). -/
def fMag (x : F64) : Nat := x.toNat % 2 ^ 63

/-- The sign bit 63 (R104). -/
def fSign (x : F64) : Bool := decide (2 ^ 63 ≤ x.toNat)

/-- The bits 62:0 of an infinity: exponent 0x7FF, fraction 0 (R104). -/
def infMag : Nat := 0x7FF * 2 ^ 52

/-- A NaN: exponent 0x7FF, fraction not 0 (R104). -/
def fIsNaN (x : F64) : Bool := decide (infMag < fMag x)

/-- An infinity (R104). -/
def fIsInf (x : F64) : Bool := decide (fMag x = infMag)

/-- Neither NaN nor infinity (R104). -/
def fIsFinite (x : F64) : Bool := decide (fMag x < infMag)

/-- The magnitude, in units of 2^-1074, of the number whose bits 62:0 are `m`: exponent 0 is a subnormal
or zero, otherwise the fraction has a leading 1 (R104). -/
def magUnits (m : Nat) : Nat :=
  if m / 2 ^ 52 = 0 then m else (m % 2 ^ 52 + 2 ^ 52) * 2 ^ (m / 2 ^ 52 - 1)

/-- The value of a finite pattern in units of 2^-1074; an infinity gives ±2^2098, beyond every finite one. -/
def fUnits (x : F64) : Int :=
  if fSign x then -(magUnits (fMag x) : Int) else (magUnits (fMag x) : Int)

/-- The pattern with sign `neg` and bits 62:0 `mag`. -/
def fPack (neg : Bool) (mag : Nat) : F64 := BitVec.ofNat 64 ((if neg then 2 ^ 63 else 0) + mag)

/-- The natural number nearest to `n / d`, the even one of two equally near (R120). -/
def rneDiv (n d : Nat) : Nat :=
  if 2 * (n % d) < d then n / d
  else if d < 2 * (n % d) then n / d + 1
  else n / d + (n / d) % 2

/-- How far the binary point moves so that 53 bits remain of `n / d` units. -/
def roundShift (n d : Nat) : Nat := (n / d).log2 - 52

/-- The bits 62:0 of `n / d` units rounded to binary64, overflowing to infinity (R9 `fl`, R120). -/
def roundMag (n d : Nat) : Nat :=
  min (roundShift n d * 2 ^ 52 + rneDiv n (d * 2 ^ roundShift n d)) infMag

/-- `fl` of ±`n / d` units of 2^-1074 (R9, R120). -/
def fRound (neg : Bool) (n d : Nat) : F64 := fPack neg (roundMag n d)

/-- The quiet NaN an invalid operation gives (PRESUMED, log 11; no rule reaches it, R121). -/
def fNaN : F64 := 0x7FF8000000000000#64

/-- The same number with the other sign. -/
def fNeg (x : F64) : F64 := x ^^^ 0x8000000000000000#64

/-- The rounded sum (R120). -/
def fAdd (x y : F64) : F64 :=
  if fIsNaN x || fIsNaN y then fNaN
  else if fIsInf x then (if fIsInf y && (fSign x != fSign y) then fNaN else x)
  else if fIsInf y then y
  else if fUnits x + fUnits y = 0 then fPack (fSign x && fSign y) 0
  else fRound (decide (fUnits x + fUnits y < 0)) (fUnits x + fUnits y).natAbs 1

/-- The rounded difference (R120). -/
def fSub (x y : F64) : F64 := fAdd x (fNeg y)

/-- The rounded product (R120). -/
def fMul (x y : F64) : F64 :=
  if fIsNaN x || fIsNaN y then fNaN
  else if fIsInf x || fIsInf y then
    (if fMag x = 0 || fMag y = 0 then fNaN else fPack (fSign x != fSign y) infMag)
  else fRound (fSign x != fSign y) (magUnits (fMag x) * magUnits (fMag y)) oneUnits

/-- The rounded quotient (R120). -/
def fDiv (x y : F64) : F64 :=
  if fIsNaN x || fIsNaN y then fNaN
  else if fIsInf x then (if fIsInf y then fNaN else fPack (fSign x != fSign y) infMag)
  else if fIsInf y then fPack (fSign x != fSign y) 0
  else if fMag y = 0 then (if fMag x = 0 then fNaN else fPack (fSign x != fSign y) infMag)
  else fRound (fSign x != fSign y) (magUnits (fMag x) * oneUnits) (magUnits (fMag y))

/-- `x < y`, the IEEE comparison of values (R120): false on a NaN, and -0.0 equals +0.0. -/
def fLt (x y : F64) : Bool := !fIsNaN x && !fIsNaN y && decide (fUnits x < fUnits y)

/-- `x ≤ y`, the IEEE comparison of values (R120). -/
def fLe (x y : F64) : Bool := !fIsNaN x && !fIsNaN y && decide (fUnits x ≤ fUnits y)

end Sys2Proof.Machine
end

