-- ==== Sys2Proof/Machine/Numerics.lean ====
section
/-! DEFINITION. The numeric primitives all commands share (`40_numerics.md` R120 to R134): literals, max and
min, clamp, quant, rne_int, sign, floor_int, fmod, conversion of integers, byte serialisation, CRC-32. -/

namespace Sys2Proof.Machine

/-! The literals of R122. -/

def f0 : F64 := 0x0000000000000000#64
def f1 : F64 := 0x3FF0000000000000#64
def fm1 : F64 := 0xBFF0000000000000#64
def f2 : F64 := 0x4000000000000000#64
def fHalf : F64 := 0x3FE0000000000000#64
def f60 : F64 := 0x404E000000000000#64
def f32767 : F64 := 0x40DFFFC000000000#64
def f0_62 : F64 := 0x3FE3D70A3D70A3D7#64
def f0_28 : F64 := 0x3FD1EB851EB851EC#64
def f0_10 : F64 := 0x3FB999999999999A#64
def f0_7 : F64 := 0x3FE6666666666666#64
def f0_01 : F64 := 0x3F847AE147AE147B#64
def f0_08 : F64 := 0x3FB47AE147AE147B#64
def f0_65 : F64 := 0x3FE4CCCCCCCCCCCD#64
def f0_12 : F64 := 0x3FBEB851EB851EB8#64
def f120 : F64 := 0x405E000000000000#64
def f70 : F64 := 0x4051800000000000#64
def f50 : F64 := 0x4049000000000000#64
def f0_18 : F64 := 0x3FC70A3D70A3D70A#64
def f0_2 : F64 := 0x3FC999999999999A#64
def f0_16 : F64 := 0x3FC47AE147AE147B#64
def f0_17 : F64 := 0x3FC5C28F5C28F5C3#64
def f0_72 : F64 := 0x3FE70A3D70A3D70A#64
def f190 : F64 := 0x4067C00000000000#64
def f0_06 : F64 := 0x3FAEB851EB851EB8#64
def f0_07 : F64 := 0x3FB1EB851EB851EC#64
def f0_005 : F64 := 0x3F747AE147AE147B#64
def f0_58 : F64 := 0x3FE28F5C28F5C28F#64
def f0_04 : F64 := 0x3FA47AE147AE147B#64
def f0_05 : F64 := 0x3FA999999999999A#64
def f0_03 : F64 := 0x3F9EB851EB851EB8#64
def f0_82 : F64 := 0x3FEA3D70A3D70A3D#64
def f0_75 : F64 := 0x3FE8000000000000#64
def f0_4 : F64 := 0x3FD999999999999A#64
def f0_42 : F64 := 0x3FDAE147AE147AE1#64

/-- TWO_PI (R123). -/
def fTwoPi : F64 := 0x401921FB54442D18#64

/-- 2^32, the upper bound of the operand domains (R256). -/
def fTwo32 : F64 := 0x41F0000000000000#64

/-- -2^32 (R256). -/
def fNegTwo32 : F64 := 0xC1F0000000000000#64

/-- 2^-32, the lower bound of the positive operand domains (R256). -/
def fTwoM32 : F64 := 0x3DF0000000000000#64

/-- `max(a, b)` is `if a < b then b else a` (R120). -/
def fMax (a b : F64) : F64 := if fLt a b then b else a

/-- `min(a, b)` is `if b < a then b else a` (R120). -/
def fMin (a b : F64) : F64 := if fLt b a then b else a

/-- `clamp(x, lo, hi)` (R124). -/
def fClamp (x lo hi : F64) : F64 := if fLt x lo then lo else if fLt hi x then hi else x

/-- The value with its fraction dropped, toward zero (R125 `trunc`). -/
def fTrunc (x : F64) : Int := (fUnits x).tdiv oneUnits

/-- `quant(x)` as an integer (R125): clamp to [-1, 1], times 32767.0, truncate. -/
def quantInt (x : F64) : Int := fTrunc (fMul (fClamp x fm1 f1) f32767)

/-- `quant(x)` as the 16-bit pattern stored in SMP (R125, R107). -/
def quant (x : F64) : BitVec 16 := BitVec.ofInt 16 (quantInt x)

/-- `rne_int(x)` for finite x ≥ 0 (R126): the nearest integer, ties to even. -/
def rneInt (x : F64) : Nat := rneDiv (fUnits x).natAbs oneUnits

/-- `floor_int(q)` for finite q ≥ 0 (R131). -/
def floorInt (x : F64) : Nat := (fUnits x).natAbs / oneUnits

/-- `fmod(t, d)` for finite t ≥ 0 and d > 0 (R131): the exact remainder. -/
def fMod (t d : F64) : F64 := fRound false ((fUnits t).natAbs % (fUnits d).natAbs) 1

/-- `int_to_f64(n)`, `u32_to_f64(n)`: exact for n ≤ 2^53 (R132). -/
def ofNatF (n : Nat) : F64 := fRound false (n * oneUnits) 1

/-- `sign(v)` (R128): 1.0, -1.0, or +0.0 for either zero. -/
def fSignum (v : F64) : F64 := if fLt f0 v then f1 else if fLt v f0 then fm1 else f0

/-- `count(dur, sr) = rne_int(dur * u32_to_f64(sr))` with `sr` converted (R126). -/
def sampleCount (dur sr : F64) : Nat := rneInt (fMul dur sr)

/-! Byte serialisation (R11). -/

/-- `u16le(v)`: the 2 bytes of v, least significant first (R11). -/
def u16le (v : Nat) : List Byte := [BitVec.ofNat 8 v, BitVec.ofNat 8 (v / 2 ^ 8)]

/-- `u32le(v)`: the 4 bytes of v, least significant first (R11). -/
def u32le (v : Nat) : List Byte :=
  [BitVec.ofNat 8 v, BitVec.ofNat 8 (v / 2 ^ 8), BitVec.ofNat 8 (v / 2 ^ 16), BitVec.ofNat 8 (v / 2 ^ 24)]

/-- `u32be(v)`: the 4 bytes of v, most significant first (R11). -/
def u32be (v : Nat) : List Byte :=
  [BitVec.ofNat 8 (v / 2 ^ 24), BitVec.ofNat 8 (v / 2 ^ 16), BitVec.ofNat 8 (v / 2 ^ 8), BitVec.ofNat 8 v]

/-- One of the 8 shifts of the CRC register for one byte (R134). -/
def crcShift (c : BitVec 32) : BitVec 32 :=
  if c.getLsbD 0 then (c >>> 1) ^^^ 0xEDB88320#32 else c >>> 1

/-- `n` shifts of the CRC register (R134). -/
def crcShifts : Nat → BitVec 32 → BitVec 32
  | 0, c => c
  | n + 1, c => crcShifts n (crcShift c)

/-- The CRC register after one byte (R134). -/
def crcByte (c : BitVec 32) (b : Byte) : BitVec 32 := crcShifts 8 (c ^^^ b.setWidth 32)

/-- `crc32(B)` (R134). -/
def crc32 (bytes : List Byte) : BitVec 32 :=
  bytes.foldl crcByte 0xFFFFFFFF#32 ^^^ 0xFFFFFFFF#32

/-- The pair (a, b) of Adler-32 after the bytes (R238). -/
def adlerSums : List Byte → Nat → Nat → Nat × Nat
  | [], a, b => (a, b)
  | v :: vs, a, b => adlerSums vs ((a + v.toNat) % 65521) ((b + (a + v.toNat) % 65521) % 65521)

/-- `adler32(B)` (R238). -/
def adler32 (bytes : List Byte) : Nat := (adlerSums bytes 1 0).2 * 65536 + (adlerSums bytes 1 0).1

end Sys2Proof.Machine
end

