-- ==== Sys2Proof/Machine/Inflate.lean ====
section
/-! DEFINITION. The zlib stream format that law Z2 of the compressor speaks of (`46_raster_encoder.md` R236):
a decoder for zlib streams of deflate blocks, stored, fixed and dynamic, and the reference compressor
COMPRESS_REF (R237). The spec names the format and takes it from general knowledge; the decoder follows the
public format and refuses what a standard inflater refuses (PRESUMED, log 7). -/

namespace Sys2Proof.Machine

/-- The bits of a byte, least significant first, as deflate packs them. -/
def bitsOfByte (b : Byte) : List Bool := (List.range 8).map b.getLsbD

/-- The bit stream of a byte sequence. -/
def bitsOfBytes (bytes : List Byte) : List Bool := bytes.flatMap bitsOfByte

/-- An `n`-bit number, least significant bit first, and the bits after it. -/
def takeBits : Nat → List Bool → Option (Nat × List Bool)
  | 0, bits => some (0, bits)
  | _ + 1, [] => none
  | n + 1, b :: bits =>
    match takeBits n bits with
    | some (v, rest) => some (b.toNat + 2 * v, rest)
    | none => none

/-- `n` whole bytes and the bits after them. -/
def takeBytes : Nat → List Bool → Option (List Byte × List Bool)
  | 0, bits => some ([], bits)
  | n + 1, bits =>
    match takeBits 8 bits with
    | none => none
    | some (v, rest) =>
      match takeBytes n rest with
      | none => none
      | some (bytes, rest') => some (BitVec.ofNat 8 v :: bytes, rest')

/-- The symbols whose code has `len` bits, in ascending order. -/
def symbolsOfLength (lens : List Nat) (len : Nat) : List Nat :=
  (List.range lens.length).filter fun s => lens[s]? == some len

/-- One symbol of the canonical prefix code with code lengths `lens`: `code` is the code read so far, `first`
the first code of the length tried. -/
def huffmanSymbol (lens : List Nat) : Nat → Nat → Nat → Nat → List Bool → Option (Nat × List Bool)
  | 0, _, _, _, _ => none
  | _ + 1, _, _, _, [] => none
  | fuel + 1, len, code, first, b :: bits =>
    if code + b.toNat < first + (symbolsOfLength lens len).length then
      match (symbolsOfLength lens len)[code + b.toNat - first]? with
      | some s => some (s, bits)
      | none => none
    else
      huffmanSymbol lens fuel (len + 1) (2 * (code + b.toNat))
        (2 * (first + (symbolsOfLength lens len).length)) bits

/-- One symbol; a code has at most 15 bits. -/
def takeSymbol (lens : List Nat) (bits : List Bool) : Option (Nat × List Bool) :=
  huffmanSymbol lens 15 1 0 0 bits

/-- How much of the 2^15 code words of 15 bits the codes of these lengths take up; length 0 is no code. -/
def codeSpace (lens : List Nat) : Nat := (lens.map fun l => if l = 0 then 0 else 2 ^ (15 - l)).sum

/-- A complete code: every bit sequence starts with exactly one code word. -/
def codeComplete (lens : List Nat) : Bool := codeSpace lens == 2 ^ 15

/-- A code a standard inflater takes for literals or for distances: complete, or one code word of one bit, or, for
distances of a block without matches, none at all. -/
def codeUsable (lens : List Nat) : Bool :=
  codeComplete lens || (lens.all (· ≤ 1) && codeSpace lens ≤ 2 ^ 14)

/-- The codes of a dynamic block may be used: both usable, and the end symbol 256 has a code. -/
def blockCodesOk (lit dist : List Nat) : Bool :=
  codeUsable lit && codeUsable dist && lit[256]?.getD 0 != 0

/-- Base and extra bits of the match lengths, symbols 257 to 285. -/
def lengthCodes : List (Nat × Nat) :=
  [(3, 0), (4, 0), (5, 0), (6, 0), (7, 0), (8, 0), (9, 0), (10, 0), (11, 1), (13, 1), (15, 1), (17, 1),
   (19, 2), (23, 2), (27, 2), (31, 2), (35, 3), (43, 3), (51, 3), (59, 3), (67, 4), (83, 4), (99, 4),
   (115, 4), (131, 5), (163, 5), (195, 5), (227, 5), (258, 0)]

/-- Base and extra bits of the match distances, symbols 0 to 29. -/
def distanceCodes : List (Nat × Nat) :=
  [(1, 0), (2, 0), (3, 0), (4, 0), (5, 1), (7, 1), (9, 2), (13, 2), (17, 3), (25, 3), (33, 4), (49, 4),
   (65, 5), (97, 5), (129, 6), (193, 6), (257, 7), (385, 7), (513, 8), (769, 8), (1025, 9), (1537, 9),
   (2049, 10), (3073, 10), (4097, 11), (6145, 11), (8193, 12), (12289, 12), (16385, 13), (24577, 13)]

/-- A value given by a base and extra bits. -/
def takeExtra (code : Option (Nat × Nat)) (bits : List Bool) : Option (Nat × List Bool) :=
  match code with
  | none => none
  | some (base, extra) =>
    match takeBits extra bits with
    | none => none
    | some (v, rest) => some (base + v, rest)

/-- Repeats `len` times the byte `dist` places back; the output is held newest byte first. None where the output
does not reach that far back. -/
def copyBack : Nat → Nat → List Byte → Option (List Byte)
  | 0, _, out => some out
  | len + 1, dist, out =>
    match out[dist - 1]? with
    | none => none
    | some b => copyBack len dist (b :: out)

/-- The symbols of one compressed block up to its end symbol 256; `out` newest byte first; no match reaches further
back than `window`. -/
def inflateSymbols (window : Nat) (lit dist : List Nat) : Nat → List Bool → List Byte → Option (List Byte × List Bool)
  | 0, _, _ => none
  | fuel + 1, bits, out =>
    match takeSymbol lit bits with
    | none => none
    | some (s, rest) =>
      if s < 256 then inflateSymbols window lit dist fuel rest (BitVec.ofNat 8 s :: out)
      else if s = 256 then some (out, rest)
      else
        match takeExtra lengthCodes[s - 257]? rest with
        | none => none
        | some (len, rest) =>
          match takeSymbol dist rest with
          | none => none
          | some (d, rest) =>
            match takeExtra distanceCodes[d]? rest with
            | none => none
            | some (back, rest) =>
              if back ≤ window then
                match copyBack len back out with
                | none => none
                | some out => inflateSymbols window lit dist fuel rest out
              else none

/-- The literal and length code of a fixed block. -/
def fixedLiteralLengths : List Nat :=
  List.replicate 144 8 ++ List.replicate 112 9 ++ List.replicate 24 7 ++ List.replicate 8 8

/-- The distance code of a fixed block. -/
def fixedDistanceLengths : List Nat := List.replicate 30 5

/-- The order in which the lengths of the code length code stand. -/
def codeLengthOrder : List Nat := [16, 17, 18, 0, 8, 7, 9, 6, 10, 5, 11, 4, 12, 3, 13, 2, 14, 1, 15]

/-- `n` numbers of 3 bits. -/
def takeTriples : Nat → List Bool → Option (List Nat × List Bool)
  | 0, bits => some ([], bits)
  | n + 1, bits =>
    match takeBits 3 bits with
    | none => none
    | some (v, rest) =>
      match takeTriples n rest with
      | none => none
      | some (vs, rest) => some (v :: vs, rest)

/-- The code length code from its lengths in transmitted order. -/
def codeLengthLengths (sent : List Nat) : List Nat :=
  (List.range 19).map fun s =>
    match codeLengthOrder.idxOf? s with
    | some p => sent[p]?.getD 0
    | none => 0

/-- The `total` code lengths of a dynamic block; `acc` newest first. -/
def takeLengths (cl : List Nat) (total : Nat) : Nat → List Bool → List Nat → Option (List Nat × List Bool)
  | 0, _, _ => none
  | fuel + 1, bits, acc =>
    if acc.length = total then some (acc.reverse, bits)
    else if total < acc.length then none
    else
      match takeSymbol cl bits with
      | none => none
      | some (s, rest) =>
        if s < 16 then takeLengths cl total fuel rest (s :: acc)
        else if s = 16 then
          match acc.head?, takeBits 2 rest with
          | some l, some (v, rest) => takeLengths cl total fuel rest (List.replicate (3 + v) l ++ acc)
          | _, _ => none
        else if s = 17 then
          match takeBits 3 rest with
          | some (v, rest) => takeLengths cl total fuel rest (List.replicate (3 + v) 0 ++ acc)
          | none => none
        else
          match takeBits 7 rest with
          | some (v, rest) => takeLengths cl total fuel rest (List.replicate (11 + v) 0 ++ acc)
          | none => none

/-- A stored block: to the byte boundary, length, its complement, the bytes. -/
def inflateStored (bits : List Bool) (out : List Byte) : Option (List Byte × List Bool) :=
  match takeBits 16 (bits.drop (bits.length % 8)) with
  | none => none
  | some (len, rest) =>
    match takeBits 16 rest with
    | none => none
    | some (nlen, rest) =>
      if len + nlen = 65535 then
        match takeBytes len rest with
        | none => none
        | some (bytes, rest) => some (bytes.reverse ++ out, rest)
      else none

/-- The codes of a dynamic block, `nlit` lengths for literals and `ndist` for distances behind a code length code
of `nclen` lengths: at most 286 and 30, the code length code complete, both codes fit to be used. -/
def takeCodes (nlit ndist nclen : Nat) (bits : List Bool) : Option ((List Nat × List Nat) × List Bool) :=
  if 286 < nlit || 30 < ndist then none
  else
    match takeTriples nclen bits with
    | none => none
    | some (sent, rest) =>
      if codeComplete (codeLengthLengths sent) then
        match takeLengths (codeLengthLengths sent) (nlit + ndist) (rest.length + 1) rest [] with
        | none => none
        | some (lens, rest) =>
          if blockCodesOk (lens.take nlit) (lens.drop nlit) then some ((lens.take nlit, lens.drop nlit), rest)
          else none
      else none

/-- A block with dynamic codes. -/
def inflateDynamic (window : Nat) (bits : List Bool) (out : List Byte) : Option (List Byte × List Bool) :=
  match takeBits 5 bits with
  | none => none
  | some (hlit, rest) =>
    match takeBits 5 rest with
    | none => none
    | some (hdist, rest) =>
      match takeBits 4 rest with
      | none => none
      | some (hclen, rest) =>
        match takeCodes (hlit + 257) (hdist + 1) (hclen + 4) rest with
        | none => none
        | some ((lit, dist), rest) => inflateSymbols window lit dist (rest.length + 1) rest out

/-- One block, by its type. -/
def inflateBlock (window btype : Nat) (bits : List Bool) (out : List Byte) : Option (List Byte × List Bool) :=
  if btype = 0 then inflateStored bits out
  else if btype = 1 then
    inflateSymbols window fixedLiteralLengths fixedDistanceLengths (bits.length + 1) bits out
  else if btype = 2 then inflateDynamic window bits out
  else none

/-- The blocks up to and including the final one. -/
def inflateBlocks (window : Nat) : Nat → List Bool → List Byte → Option (List Byte × List Bool)
  | 0, _, _ => none
  | fuel + 1, bits, out =>
    match takeBits 1 bits with
    | none => none
    | some (final, rest) =>
      match takeBits 2 rest with
      | none => none
      | some (btype, rest) =>
        match inflateBlock window btype rest out with
        | none => none
        | some (out, rest) => if final = 1 then some (out, rest) else inflateBlocks window fuel rest out

/-- The two header bytes of a zlib stream: method 8, window at most 32 KiB, no preset dictionary, check bits. -/
def zlibHeaderOk (cmf flg : Byte) : Bool :=
  cmf.toNat % 16 == 8 && cmf.toNat / 16 ≤ 7 && (cmf.toNat * 256 + flg.toNat) % 31 == 0
    && (flg.toNat / 32) % 2 == 0

/-- The window the first header byte names: 256 bytes to 32 KiB. -/
def zlibWindow (cmf : Byte) : Nat := 2 ^ (cmf.toNat / 16 + 8)

/-- What a zlib stream decodes to, if it is one: header, deflate blocks, big-endian Adler-32 of the decoded
bytes, and nothing after it (R236 Z2). -/
def inflateZlib (stream : List Byte) : Option (List Byte) :=
  match stream with
  | cmf :: flg :: body =>
    if zlibHeaderOk cmf flg then
      match inflateBlocks (zlibWindow cmf) (bitsOfBytes body).length (bitsOfBytes body) [] with
      | none => none
      | some (out, rest) =>
        match takeBytes 4 (rest.drop (rest.length % 8)) with
        | some (check, []) => if check = u32be (adler32 out.reverse) then some out.reverse else none
        | _ => none
    else none
  | _ => none

/-- One stored deflate block of the bytes `piece` (R237). -/
def storedBlock (final : Bool) (piece : List Byte) : List Byte :=
  (if final then 0x01#8 else 0x00#8) :: (u16le piece.length ++ u16le (piece.length ^^^ 0xFFFF) ++ piece)

/-- `blocks(B)` of R237: pieces of 65535 bytes, the last one final; `fuel` at least the number of pieces. -/
def storedBlocks : Nat → List Byte → List Byte
  | 0, bytes => storedBlock true bytes
  | fuel + 1, bytes =>
    if bytes.length ≤ 65535 then storedBlock true bytes
    else storedBlock false (bytes.take 65535) ++ storedBlocks fuel (bytes.drop 65535)

/-- COMPRESS_REF (R237). -/
def compressRef (bytes : List Byte) : List Byte :=
  [0x78#8, 0x01#8] ++ storedBlocks (bytes.length / 65535) bytes ++ u32be (adler32 bytes)

end Sys2Proof.Machine
end

