-- ==== Sys2Proof/Machine/Reference.lean ====
section
/-! DEFINITION. The reference instances of the function parameters: SIN_CR (`40_numerics.md` R127) and
NOISE_REF (R130). COMPRESS_REF (R237) stands in `Machine/Inflate.lean`. -/

namespace Sys2Proof.Machine

/-- ⌊π · 2^1600⌋ (log 5). -/
def piFixed : Nat :=
  0x3243f6a8885a308d313198a2e03707344a4093822299f31d0082efa98ec4e6c89452821e638d01377be5466cf34e90c6cc0ac29b7c97c50dd3f84d5b5b54709179216d5d98979fb1bd1310ba698dfb5ac2ffd72dbd01adfb7b8e1afed6a267e96ba7c9045f12c7f9924a19947b3916cf70801f2e2858efc16636920d871574e69a458fea3f4933d7e0d95748f728eb658718bcd5882154aee7b54a41dc25a59b59c30d5392af26013c5d1b023286085f0ca417918b8db38ef8e79dcb0603a180e6c9e0e8bb01e8a3e

/-- Binary places kept after the point so that the argument with bits 62:0 `m` has at least 320 significant ones. -/
def sinPlaces (m : Nat) : Nat := 320 + (1074 - (magUnits m).log2)

/-- The argument reduced modulo 2π, in units of 2^-`k`: exact below 4, from 1600 places of π above (log 5). -/
def sinReduce (m k : Nat) : Nat :=
  if magUnits m < 4 * oneUnits then magUnits m * 2 ^ k / oneUnits
  else (magUnits m * 2 ^ 526) % (2 * piFixed) / 2 ^ (1600 - k)

/-- The terms r - r³/3! + r⁵/5! - ..., each in units of 2^-`k`: `term` is the last one, of odd order `n`. -/
def sinTerms (r k : Nat) : Nat → Nat → Nat → Int
  | 0, _, _ => 0
  | fuel + 1, n, term =>
    (term : Int) - sinTerms r k fuel (n + 2) (term * r / 2 ^ k * r / 2 ^ k / ((n + 1) * (n + 2)))

/-- ⌊π · 2^k⌋. -/
def piPlaces (k : Nat) : Nat := piFixed / 2 ^ (1600 - k)

/-- The sine of `r` in [0, 2π), in units of 2^-`k`, by the half turn and the quarter turn. -/
def sinFolded (r k : Nat) : Int :=
  if r < piPlaces k then sinTerms (min r (piPlaces k - r)) k 48 1 (min r (piPlaces k - r))
  else -sinTerms (min (r - piPlaces k) (2 * piPlaces k - r)) k 48 1 (min (r - piPlaces k) (2 * piPlaces k - r))

/-- The sine of the number with bits 62:0 `m`, in units of 2^-`k`; below 1 no folding is needed. -/
def sinFixed (m k : Nat) : Int :=
  if magUnits m < oneUnits then sinTerms (sinReduce m k) k 48 1 (sinReduce m k)
  else sinFolded (sinReduce m k) k

/-- SIN_CR (R127): the real sine, from about 320 bits, rounded to the nearest binary64 (log 5). -/
def sinCR (x : F64) : F64 :=
  if fIsFinite x then
    if fMag x = 0 then x
    else
      fRound (fSign x != decide (sinFixed (fMag x) (sinPlaces (fMag x)) < 0))
        ((sinFixed (fMag x) (sinPlaces (fMag x))).natAbs * oneUnits) (2 ^ sinPlaces (fMag x))
  else fNaN

/-- The 32-bit state after one NOISE_REF step: shifts 13, 17, 5 (R130). -/
def xorshift32 (x : BitVec 32) : BitVec 32 :=
  let x1 := x ^^^ (x <<< 13)
  let x2 := x1 ^^^ (x1 >>> 17)
  x2 ^^^ (x2 <<< 5)

/-- The value of a NOISE_REF state: `u32_to_f64(x3) / 2147483648.0 - 1.0` (R130). -/
def noiseRefValue (x : BitVec 32) : F64 := fSub (fDiv (ofNatF x.toNat) 0x41E0000000000000#64) f1

/-- NOISE_REF.next (R130), on the 32-bit state coded as a number. -/
def noiseRefNext (x : NoiseState) : NoiseState × F64 :=
  ((xorshift32 (BitVec.ofNat 32 x)).toNat, noiseRefValue (xorshift32 (BitVec.ofNat 32 x)))

/-- NOISE_REF.seed (R130). -/
def noiseRefSeed : NoiseState := 1337

end Sys2Proof.Machine
end

