-- ==== Sys2Proof/Machine/Params.lean ====
section
/-! DEFINITION. The function parameters SIN, NOISE and COMPRESS of a build (`00_scope.md` R6), with the laws a
claim may assume of them holding by construction: whatever the opaque constants of Config are, a value that
breaks a law is replaced by one that keeps it, so that the functions below range over exactly the functions
that satisfy the laws (log 4, 6, 7). -/

namespace Sys2Proof.Machine

/-- A finite value in [-1.0, 1.0] (R127 L1, R129 N2). -/
def inUnit (y : F64) : Bool := fLe fm1 y && fLe y f1

/-- `f` made to satisfy L1 and L2: values in [-1.0, 1.0], and sin(±0.0) = ±0.0 (R127). -/
def lawfulSin (f : F64 → F64) (x : F64) : F64 :=
  if fMag x = 0 then x else if inUnit (f x) then f x else f0

/-- SIN of an implementation (R127). -/
def sinOf (i : Impl) (x : F64) : F64 :=
  match i with
  | .reference => lawfulSin sinCR x
  | .other k => lawfulSin (Config.sinRaw k) x

/-- NOISE.seed of an implementation (R129 N3). -/
def seedOf (i : Impl) : NoiseState :=
  match i with
  | .reference => noiseRefSeed
  | .other k => Config.noiseSeed k

/-- A draw made to satisfy N2: a value in [-1.0, 1.0] (R129). -/
def lawfulDraw (d : NoiseState × F64) : NoiseState × F64 := if inUnit d.2 then d else (d.1, f0)

/-- NOISE.next of an implementation (R129). -/
def noiseOf (i : Impl) (x : NoiseState) : NoiseState × F64 :=
  match i with
  | .reference => lawfulDraw (noiseRefNext x)
  | .other k => lawfulDraw (Config.noiseNextRaw k x)

/-- `stream` if it is a zlib stream of `bytes` (R236 Z2), otherwise the stream of COMPRESS_REF, which is one. -/
def lawfulStream (stream bytes : List Byte) : List Byte :=
  if inflateZlib stream = some bytes then stream else compressRef bytes

/-- COMPRESS of an implementation (R236). -/
def compressOf (i : Impl) (bytes : List Byte) : List Byte :=
  match i with
  | .reference => compressRef bytes
  | .other k => lawfulStream (Config.compressRaw k bytes) bytes

end Sys2Proof.Machine
end

