-- ==== Sys2Proof/Machine/State.lean ====
section
/-! DEFINITION. The state of the block (`10_state.md` R20), as plain data, and the state after reset
(R53, R54, `70_reset_and_hazards.md` R280). -/

namespace Sys2Proof.Machine

/-- The written bytes of the tables, by block address, addresses strictly rising (log 9, 10). -/
abbrev Memory := List Host.Cell

/-- One thing the outside world does to the block (`20_memory.md` R70, R280). -/
inductive HostEvent where
  /-- `MemRead(addr, 8)` (R71). -/
  | read (addr : Addr)
  /-- `MemWrite(addr, 8, data)` (R72). -/
  | write (addr : Addr) (data : Word)
  /-- The `rst` input (R280). -/
  | reset
  deriving DecidableEq, Repr

/-- A coming move of the host. `beforeEnd` says whether, if a command is in progress when this move is the next
one, the host makes it before that command ends (U6 (b), R292; log 1). -/
structure Input where
  event : HostEvent
  beforeEnd : Bool
  deriving DecidableEq, Repr

/-- The answer of the port to one transaction (R70). -/
inductive Answer where
  /-- `OK(data)`, the answer of a read. -/
  | okData (data : Word)
  /-- `OK`, the answer of a write. -/
  | ok
  /-- `ERR`: the transaction is refused. -/
  | err
  deriving DecidableEq, Repr

/-- A fault code and its information word, the record a fault leaves (R253, R254). -/
structure FaultRecord where
  code : BitVec 8
  info : Word
  deriving DecidableEq, Repr

/-- Why the machine stops with a fault of the host's interface. NO step of this model answers it: every fault of
the spec (R254) is an ordinary next state with STATUS.FAULT = 1, and every transaction the spec turns away is
answered ERR in a next state (log 13). -/
inductive Fault where
  /-- An access to a block address where the spec puts nothing. Raised by nothing: R75 refuses such a transaction
  with ERR and R79 says a command makes none. Safe: a stop the hardware does not have. -/
  | absentAddress (addr : Nat)
  deriving DecidableEq, Repr

/-- Why an instruction has no meaning. -/
inductive Refusal where
  /-- The instruction is not modelled yet. Raised by an arm of `exec` only; no arm does. Safe. -/
  | notModelled (mnemonic : String)
  deriving DecidableEq, Repr

/-- The complete state of the block (R20), the model's own fields last. -/
structure State where
  /-- The command word accepted and not ended; STATUS.BUSY is 1 exactly when there is one (R22, R23, R251; log 2). -/
  running : Option Word
  /-- STATUS.DONE (R23). -/
  done : Bool
  /-- STATUS.FAULT (R23). -/
  fault : Bool
  /-- STATUS.FCODE (R23, R254). -/
  fcode : BitVec 8
  /-- FINFO (R24). -/
  finfo : Word
  /-- RESULT (R25). -/
  result : F64
  /-- T_IN (R26). -/
  tIn : F64
  /-- ENV_A (R27). -/
  envA : F64
  /-- ENV_D (R27). -/
  envD : F64
  /-- ENV_S (R27). -/
  envS : F64
  /-- ENV_R (R27). -/
  envR : F64
  /-- ENV_T (R27). -/
  envT : F64
  /-- BPM (R28). -/
  bpm : F64
  /-- SRATE (R29). -/
  srate : U32
  /-- LOOPS (R30). -/
  loops : U32
  /-- PHRASE_LEN (R31). -/
  phraseLen : U32
  /-- DRUM_LEN (R32). -/
  drumLen : U32
  /-- PIX_W (R33). -/
  pixW : U32
  /-- PIX_H (R33). -/
  pixH : U32
  /-- PIX_LEN (R34). -/
  pixLen : U32
  /-- SMP_LEN (R35). -/
  smpLen : U32
  /-- OUT_LEN (R36). -/
  outLen : U32
  /-- N_K (R37). -/
  nK : U32
  /-- N_S (R37). -/
  nS : U32
  /-- N_H (R37). -/
  nH : U32
  /-- RNG, hidden (R48). -/
  rng : NoiseState
  /-- The nine tables MEL, BASS, DRUM, PIX, SMP, OUT, ONS_K, ONS_S, ONS_H (R39 to R46; log 9). -/
  mem : Memory
  /-- The model's own: the parameters the block was built with (R5, R6; log 3). -/
  build : Build
  /-- The model's own: the number of resets so far, on which unwritten table contents depend (R54; log 8). -/
  resets : Nat
  /-- The model's own: the host's coming moves, oldest first (R70; log 1). -/
  inputs : List Input
  /-- The model's own: the answer lines of the port after the last transaction (R70; log 12). -/
  answer : Option Answer
  deriving DecidableEq, Repr

/-- The block right after reset (R53, R280): every register at its reset value, RNG seeded, no table element
written (R54). The build is the reference one (log 3). -/
def State.reset : State :=
  { running := none, done := false, fault := false, fcode := 0, finfo := 0, result := 0, tIn := 0,
    envA := 0, envD := 0, envS := 0, envR := 0, envT := 0, bpm := 0, srate := 0, loops := 0,
    phraseLen := 0, drumLen := 0, pixW := 0, pixH := 0, pixLen := 0, smpLen := 0, outLen := 0,
    nK := 0, nS := 0, nH := 0, rng := seedOf Build.reference.noise, mem := [],
    build := Build.reference, resets := 0, inputs := [], answer := none }

end Sys2Proof.Machine
end

