-- ==== Sys2Proof/Machine/Flags.lean ====
section
/-! DEFINITION. The STATUS register: its flags, what sets and what clears them (`10_state.md` R23;
`60_exceptions.md` R250 to R252). -/

namespace Sys2Proof.Machine

/-- STATUS.BUSY: a command has been accepted and has not ended (R23). -/
def busy (s : State) : Bool := s.running.isSome

/-- STATUS as read: BUSY, DONE, FAULT in bits 0, 1, 2, FCODE in 15:8, every other bit 0 (R23). -/
def statusWord (s : State) : Word :=
  0#48 ++ s.fcode ++ 0#5 ++ BitVec.ofBool s.fault ++ BitVec.ofBool s.done ++ BitVec.ofBool (busy s)

/-- Acceptance of the command word `d`: DONE <- 0, BUSY <- 1, nothing else (R251). -/
def accept (d : Word) (s : State) : State := { s with running := some d, done := false }

/-- Successful end of a command: BUSY <- 0, DONE <- 1 (R252). -/
def finish (s : State) : State := { s with running := none, done := true }

end Sys2Proof.Machine
end

