-- ==== Sys2Proof/Machine/Ops.lean ====
section
/-! DEFINITION. The named operations over the tables and the registers, and taking a fault and returning from
one (`60_exceptions.md` R253, R254, R263, R264; `10_state.md` R21, R39). -/

namespace Sys2Proof.Machine

/-! The table memory. -/

/-- The written byte at an address, if anything has written it since reset. -/
def memRead : Memory → Nat → Option Byte
  | [], _ => none
  | (a, b) :: m, x => if x = a then some b else memRead m x

/-- Writing one byte; the addresses stay strictly rising. -/
def memWrite : Memory → Nat → Byte → Memory
  | [], x, v => [(x, v)]
  | (a, b) :: m, x, v =>
    if x < a then (x, v) :: (a, b) :: m
    else if x = a then (x, v) :: m
    else (a, b) :: memWrite m x v

/-- Every listed address is above `x`. -/
def memAbove (x : Nat) (m : Memory) : Bool := m.all fun c => decide (x < c.1)

/-- The canonical form of the table memory: addresses strictly rising, one cell per written byte (log 10). -/
def Memory.wf : Memory → Bool
  | [] => true
  | (a, _) :: m => memAbove a m && Memory.wf m

/-- The byte at a table address: the written one, else the free value of R54 (log 8). -/
def readByte (s : State) (a : Nat) : Byte := (memRead s.mem a).getD (Config.unwritten s.resets a)

/-- Writes the byte at a table address. -/
def writeByte (a : Nat) (v : Byte) (s : State) : State := { s with mem := memWrite s.mem a v }

/-- The number in `n` bytes from address `a`, the low byte first (log 9). -/
def loadBytes (s : State) : Nat → Nat → Nat
  | _, 0 => 0
  | a, n + 1 => (readByte s a).toNat + 256 * loadBytes s (a + 1) n

/-- Stores the low `n` bytes of `v` from address `a`, the low byte first (log 9). -/
def storeBytes : Nat → Nat → Nat → State → State
  | _, 0, _, s => s
  | a, n + 1, v, s => storeBytes (a + 1) n (v / 256) (writeByte a (BitVec.ofNat 8 v) s)

/-- The element at word `w` of a table, zero-extended to 64 bits (R39). -/
def loadElem (s : State) (t : Table) (w : Nat) : Word :=
  BitVec.ofNat 64 (loadBytes s (wordAddr t w) (tableBytes t) % 2 ^ tableBits t)

/-- Writes the element at word `w` of a table: the low bits of `v`, the rest dropped (R39). -/
def storeElem (t : Table) (w : Nat) (v : Word) (s : State) : State :=
  storeBytes (wordAddr t w) (tableBytes t) (v.toNat % 2 ^ tableBits t) s

/-- Writes consecutive elements of a table from word `w` on, in ascending order (R39). -/
def storeElems (t : Table) : Nat → List Word → State → State
  | _, [], s => s
  | w, v :: vs, s => storeElems t (w + 1) vs (storeElem t w v s)

/-! The registers on the bus (R21). -/

/-- What a read of a register returns (R21, R22, R23, R38). -/
def readReg (s : State) : Reg → Word
  | .cmd => 0
  | .status => statusWord s
  | .finfo => s.finfo
  | .result => s.result
  | .tIn => s.tIn
  | .envA => s.envA
  | .envD => s.envD
  | .envS => s.envS
  | .envR => s.envR
  | .envT => s.envT
  | .bpm => s.bpm
  | .srate => s.srate.setWidth 64
  | .loops => s.loops.setWidth 64
  | .phraseLen => s.phraseLen.setWidth 64
  | .drumLen => s.drumLen.setWidth 64
  | .pixW => s.pixW.setWidth 64
  | .pixH => s.pixH.setWidth 64
  | .pixLen => s.pixLen.setWidth 64
  | .smpLen => s.smpLen.setWidth 64
  | .outLen => s.outLen.setWidth 64
  | .nK => s.nK.setWidth 64
  | .nS => s.nS.setWidth 64
  | .nH => s.nH.setWidth 64
  | .id => 0x0000000050534307#64

/-- A write to an RW register: F64 registers store all 64 bits, u32 registers `data[31:0]` (R21). The registers of
another access are unchanged here; their writes are `busWrite`'s. -/
def writeReg (r : Reg) (d : Word) (s : State) : State :=
  match r with
  | .tIn => { s with tIn := d }
  | .envA => { s with envA := d }
  | .envD => { s with envD := d }
  | .envS => { s with envS := d }
  | .envR => { s with envR := d }
  | .envT => { s with envT := d }
  | .bpm => { s with bpm := d }
  | .srate => { s with srate := d.setWidth 32 }
  | .loops => { s with loops := d.setWidth 32 }
  | .phraseLen => { s with phraseLen := d.setWidth 32 }
  | .drumLen => { s with drumLen := d.setWidth 32 }
  | .pixW => { s with pixW := d.setWidth 32 }
  | .pixH => { s with pixH := d.setWidth 32 }
  | .pixLen => { s with pixLen := d.setWidth 32 }
  | .smpLen => { s with smpLen := d.setWidth 32 }
  | .cmd | .status | .finfo | .result | .outLen | .nK | .nS | .nH | .id => s

/-! Faults (R253, R254, R263, R264). -/

/-- `capinfo(id, n) = {id[7:0], min(n, 2^56 - 1)[55:0]}` (R254). -/
def capInfo (id n : Nat) : Word := BitVec.ofNat 8 id ++ BitVec.ofNat 56 (min n (2 ^ 56 - 1))

/-- ILLEGAL_CMD, code 1, with the command word (R254, R259). -/
def illegalCmd (d : Word) : FaultRecord := { code := 1, info := d }

/-- BAD_PARAM, code 2, with the address of the offending register or table word (R254, R256). -/
def badParam (addr : Nat) : FaultRecord := { code := 2, info := BitVec.ofNat 64 addr }

/-- INVARIANT, code 3, with PIX_LEN (R254, R257). -/
def invariantFault (len : U32) : FaultRecord := { code := 3, info := len.setWidth 64 }

/-- CAPACITY, code 4, with the resource and the amount demanded (R254, R258). -/
def capacityFault (id n : Nat) : FaultRecord := { code := 4, info := capInfo id n }

/-- `raise Fault(code, info)`: the command ends, the record is saved, nothing else is written (R253, R263). -/
def raiseFault (f : FaultRecord) (s : State) : State :=
  { s with running := none, done := false, fault := true, fcode := f.code, finfo := f.info }

/-- Return from a fault: FAULT, FCODE and FINFO are cleared together (R23, R264). -/
def clearFault (s : State) : State := { s with fault := false, fcode := 0, finfo := 0 }

/-- The first check that fails decides the fault (R255). -/
def firstFault : List (Bool × FaultRecord) → Option FaultRecord
  | [] => none
  | (ok, f) :: rest => if ok then firstFault rest else some f

/-- A command: validation, and when no check fails the effect and the successful end (R250, R252, R253). -/
def runCommand (check : Option FaultRecord) (effect : State → State) (s : State) :
    Host.Outcome State Fault Refusal :=
  match check with
  | some f => .next (raiseFault f s)
  | none => .next (finish (effect s))

/-! The noise source (R10 `draw()`, R48). -/

/-- `draw()`: the next noise value, RNG advanced (R10, R129). -/
def draw (s : State) : State × F64 :=
  ({ s with rng := (noiseOf s.build.noise s.rng).1 }, (noiseOf s.build.noise s.rng).2)

/-- RNG <- NOISE.seed (R48, R174, R193). -/
def reseed (s : State) : State := { s with rng := seedOf s.build.noise }

end Sys2Proof.Machine
end

