-- ==== Sys2Proof/Machine/Bus.lean ====
section
/-! DEFINITION. The host's transactions, the reset input, and what the block does next
(`20_memory.md` R70 to R77; `70_reset_and_hazards.md` R280, R281). -/

namespace Sys2Proof.Machine

/-- The block address of STATUS (R21). -/
def statusAddr : Addr := 0x00000008#32

/-- `MemRead(addr, 8)` (R71): while BUSY only STATUS answers (R76). No read changes any state. -/
def busRead (s : State) (a : Addr) : Answer :=
  if busy s && a != statusAddr then .err
  else
    match locate s.build.caps a with
    | some (.reg r) => .okData (readReg s r)
    | some (.elem t w) => .okData (loadElem s t w)
    | none => .err

/-- A write to STATUS: data bit 1 clears DONE, data bit 2 clears FAULT, FCODE and FINFO (R23). -/
def writeStatus (d : Word) (s : State) : State :=
  if d.getLsbD 2 then clearFault { s with done := s.done && !d.getLsbD 1 }
  else { s with done := s.done && !d.getLsbD 1 }

/-- A write to a register of region 0, or nothing where it is refused (R72, R75, R77). -/
def busWriteReg (r : Reg) (d : Word) (s : State) : Option State :=
  match regAccess r with
  | .readOnly => none
  | .writeOnly => if s.fault then none else some (accept d s)
  | .writeOneToClear => some (writeStatus d s)
  | .readWrite => some (writeReg r d s)

/-- A write to an address, or nothing where it is refused (R72, R74 to R77). -/
def busWrite (a : Addr) (d : Word) (s : State) : Option State :=
  if busy s then none
  else
    match locate s.build.caps a with
    | some (.reg r) => busWriteReg r d s
    | some (.elem t w) => if tableHostWrites t then some (storeElem t w d s) else none
    | none => none

/-- Reset (R280, R281): registers at their reset values, a command in progress abandoned, every table element
unspecified again. The build and the host's coming moves are not the block's to change (log 3, 14). -/
def resetBlock (s : State) : State :=
  { State.reset with
    rng := seedOf s.build.noise, build := s.build, resets := s.resets + 1, inputs := s.inputs }

/-- One event of the outside world (R70, R71, R72, R280). -/
def hostEvent (e : HostEvent) (s : State) : State :=
  match e with
  | .read a => { s with answer := some (busRead s a) }
  | .write a d =>
    match busWrite a d s with
    | some s' => { s' with answer := some .ok }
    | none => { s with answer := some .err }
  | .reset => resetBlock s

/-- What happens next. -/
inductive Move where
  /-- The host's oldest coming move, with the moves after it. -/
  | host (e : HostEvent) (rest : List Input)
  /-- The block runs the accepted command word. -/
  | command (d : Word)
  /-- Nothing: the block is idle and the host makes no move (R250). -/
  | idle
  deriving DecidableEq, Repr

/-- Who moves next: while BUSY the host only if its next move comes before the end, else the block; while idle
the host if it has a move (U6 (b), R250; log 1). -/
def nextMove (s : State) : Move :=
  match s.running, s.inputs with
  | some d, i :: rest => if i.beforeEnd then .host i.event rest else .command d
  | some d, [] => .command d
  | none, i :: rest => .host i.event rest
  | none, [] => .idle

/-- The host waits for the end of the command in progress: its next move comes after it (R286). -/
def hostWaits : List Input → List Input
  | [] => []
  | i :: rest => { i with beforeEnd := false } :: rest

end Sys2Proof.Machine
end

