-- ==== Sys2Proof/Machine/Operands.lean ====
section
/-! DEFINITION. The operands of the commands and their domains (`30_encoding.md` R104 to R109;
`60_exceptions.md` R256). -/

namespace Sys2Proof.Machine

/-- Finite, and lo ≤ x ≤ hi (R256). -/
def inDomain (lo hi x : F64) : Bool := fIsFinite x && fLe lo x && fLe x hi

/-- A time or duration of ENV: finite, 0 ≤ x ≤ 2^32 (R256). -/
def timeOk (x : F64) : Bool := inDomain f0 fTwo32 x

/-- ENV_S: finite, 0 ≤ x ≤ 1 (R256). -/
def sustainOk (x : F64) : Bool := inDomain f0 f1 x

/-- T_IN of the voices: finite, -2^32 ≤ x ≤ 2^32 (R256). -/
def hitTimeOk (x : F64) : Bool := inDomain fNegTwo32 fTwo32 x

/-- BPM and BEATS: finite, 2^-32 ≤ x ≤ 2^32 (R256). -/
def positiveOk (x : F64) : Bool := inDomain fTwoM32 fTwo32 x

/-- The rest marker: FREQ with the pattern of +0.0 (R105). -/
def isRest (x : F64) : Bool := x == 0x0000000000000000#64

/-- FREQ: the rest marker, or an admissible positive frequency (R105, R256). -/
def freqOk (x : F64) : Bool := isRest x || positiveOk x

/-- SRATE: 1 ≤ n ≤ 2^31 - 1 (R256). -/
def srateOk (n : U32) : Bool := 1 ≤ n.toNat && n.toNat ≤ 2 ^ 31 - 1

/-- A count that must not be 0 (R256). -/
def countOk (n : U32) : Bool := 1 ≤ n.toNat

/-- `MEL[k].FREQ` (R40). -/
def melFreq (s : State) (k : Nat) : F64 := loadElem s .mel (freqWord k)

/-- `MEL[k].BEATS` (R40). -/
def melBeats (s : State) (k : Nat) : F64 := loadElem s .mel (beatsWord k)

/-- `BASS[k].FREQ` (R41). -/
def bassFreq (s : State) (k : Nat) : F64 := loadElem s .bass (freqWord k)

/-- `DRUM[j]`, three bits (R42). -/
def drumStep (s : State) (j : Nat) : BitVec 3 := (loadElem s .drum j).setWidth 3

/-- `PIX[b]` (R43). -/
def pixByte (s : State) (b : Nat) : Byte := (loadElem s .pix b).setWidth 8

/-- `SMP[i]` (R45). -/
def sampleAt (s : State) (i : Nat) : BitVec 16 := (loadElem s .smp i).setWidth 16

/-- `u32_to_f64(SRATE)` (R132). -/
def srateF (s : State) : F64 := ofNatF s.srate.toNat

end Sys2Proof.Machine
end

