-- ==== Sys2Proof/Machine/Envelope.lean ====
section
/-! DEFINITION. The envelope generator and the command ENV (`41_envelope.md`). -/

namespace Sys2Proof.Machine

/-- `env(t, A, D, S, R, T)`: four linear segments, tested in order (R151). -/
def envelope (t a d s r total : F64) : F64 :=
  if fLt t a then fDiv t (fMax a Config.eps)
  else if fLt t (fAdd a d) then fSub f1 (fMul (fSub f1 s) (fDiv (fSub t a) (fMax d Config.eps)))
  else if fLt t (fSub total r) then s
  else fMul s (fClamp (fDiv (fSub total t) (fMax r Config.eps)) f0 f1)

/-- The validation of ENV, in its order (R150). -/
def envCheck (s : State) : Option FaultRecord :=
  firstFault
    [(timeOk s.tIn, badParam 0x020), (timeOk s.envA, badParam 0x028), (timeOk s.envD, badParam 0x030),
     (sustainOk s.envS, badParam 0x038), (timeOk s.envR, badParam 0x040), (timeOk s.envT, badParam 0x048)]

/-- The effect of ENV: RESULT (R150). -/
def envEffect (s : State) : State :=
  { s with result := envelope s.tIn s.envA s.envD s.envS s.envR s.envT }

/-- ENV, opcode 0x01 (R150). -/
def execEnv (s : State) : Host.Outcome State Fault Refusal := runCommand (envCheck s) envEffect s

end Sys2Proof.Machine
end

