-- ==== Sys2Proof/Machine/PcmWriter.lean ====
section
/-! DEFINITION. The linear PCM writer and the command PCMW (`45_pcm_writer.md`). -/

namespace Sys2Proof.Machine

/-- The bytes of a container as the words stored in OUT (R44). -/
def outWords (bytes : List Byte) : List Word := bytes.map (·.setWidth 64)

/-- OUT <- the bytes, OUT_LEN <- their number (R220, R230). -/
def writeOut (bytes : List Byte) (s : State) : State :=
  { storeElems .out 0 (outWords bytes) s with outLen := BitVec.ofNat 32 bytes.length }

/-- `header(N, sr)`, the 44 bytes before the samples (R221). -/
def wavHeader (n sr : Nat) : List Byte :=
  [0x52#8, 0x49#8, 0x46#8, 0x46#8] ++ u32le (36 + 2 * n) ++ [0x57#8, 0x41#8, 0x56#8, 0x45#8] ++
  [0x66#8, 0x6D#8, 0x74#8, 0x20#8] ++ u32le 16 ++ u16le 1 ++ u16le 1 ++ u32le sr ++ u32le (sr * 2) ++
  u16le 2 ++ u16le 16 ++ [0x64#8, 0x61#8, 0x74#8, 0x61#8] ++ u32le (2 * n)

/-- `u16le` of each sample in order (R223). -/
def sampleBytes (samples : List (BitVec 16)) : List Byte := samples.flatMap fun v => u16le v.toNat

/-- `SMP[0 .. SMP_LEN - 1]` (R220). -/
def smpSamples (s : State) : List (BitVec 16) := (List.range s.smpLen.toNat).map (sampleAt s)

/-- The container: header and samples (R220). -/
def wavBytes (s : State) : List Byte := wavHeader s.smpLen.toNat s.srate.toNat ++ sampleBytes (smpSamples s)

/-- The validation of PCMW, in its order (R222). -/
def pcmwCheck (s : State) : Option FaultRecord :=
  firstFault
    [(srateOk s.srate, badParam 0x058),
     (s.smpLen.toNat ≤ s.build.caps.maxSamples, capacityFault 3 s.smpLen.toNat),
     (44 + 2 * s.smpLen.toNat ≤ s.build.caps.maxOut, capacityFault 8 (44 + 2 * s.smpLen.toNat))]

/-- The effect of PCMW: OUT and OUT_LEN (R220). -/
def pcmwEffect (s : State) : State := writeOut (wavBytes s) s

/-- PCMW, opcode 0x07 (R220). -/
def execPcmw (s : State) : Host.Outcome State Fault Refusal := runCommand (pcmwCheck s) pcmwEffect s

end Sys2Proof.Machine
end

