-- ==== Sys2Proof/Machine/Percussion.lean ====
section
/-! DEFINITION. The percussion voices and the commands KICK, SNARE, HAT and SEED (`43_percussion.md`). -/

namespace Sys2Proof.Machine

/-- `amp_lin(dt, L)`: linear decay over L seconds, floored at +0.0 (R170). -/
def ampLin (dt len : F64) : F64 :=
  if fLt f0 (fSub f1 (fDiv dt len)) then fSub f1 (fDiv dt len) else f0

/-- The sweep of the kick: 120 Hz to 50 Hz over 0.12 s, then 50 Hz (R175). -/
def kickFreq (dt : F64) : F64 :=
  if fLt dt f0_12 then fSub f120 (fMul f70 (fDiv dt f0_12)) else f50

/-- `kick(dt)` (R175). -/
def kickVoice (sin : F64 → F64) (dt : F64) : F64 :=
  fMul (sin (fMul (fMul fTwoPi (kickFreq dt)) dt)) (ampLin dt f0_18)

/-- `snare(dt, n)` (R176). -/
def snareVoice (sin : F64 → F64) (dt n : F64) : F64 :=
  fMul (fAdd (fMul f0_72 n) (fMul f0_28 (sin (fMul (fMul fTwoPi f190) dt)))) (ampLin dt f0_16)

/-- `hat(dt, n)` (R177). -/
def hatVoice (dt n : F64) : F64 := fMul n (ampLin dt f0_06)

/-- `dt` in the closed window [0.0, w] (R178). -/
def inWindow (w dt : F64) : Bool := fLe f0 dt && fLe dt w

/-- W_kick (R178). -/
def kickWindow : F64 := f0_2

/-- W_snare (R178). -/
def snareWindow : F64 := f0_17

/-- W_hat (R178). -/
def hatWindow : F64 := f0_07

/-- The validation of KICK, SNARE and HAT (R171 to R173). -/
def hitCheck (s : State) : Option FaultRecord := firstFault [(hitTimeOk s.tIn, badParam 0x020)]

/-- The effect of KICK (R171). -/
def kickEffect (s : State) : State :=
  { s with result := if inWindow kickWindow s.tIn then kickVoice (sinOf s.build.sin) s.tIn else f0 }

/-- The effect of SNARE: one draw inside the window, none outside (R172, R179). -/
def snareEffect (s : State) : State :=
  if inWindow snareWindow s.tIn then
    { (draw s).1 with result := snareVoice (sinOf s.build.sin) s.tIn (draw s).2 }
  else { s with result := f0 }

/-- The effect of HAT: one draw inside the window, none outside (R173, R179). -/
def hatEffect (s : State) : State :=
  if inWindow hatWindow s.tIn then { (draw s).1 with result := hatVoice s.tIn (draw s).2 }
  else { s with result := f0 }

/-- KICK, opcode 0x03 (R171). -/
def execKick (s : State) : Host.Outcome State Fault Refusal := runCommand (hitCheck s) kickEffect s

/-- SNARE, opcode 0x04 (R172). -/
def execSnare (s : State) : Host.Outcome State Fault Refusal := runCommand (hitCheck s) snareEffect s

/-- HAT, opcode 0x05 (R173). -/
def execHat (s : State) : Host.Outcome State Fault Refusal := runCommand (hitCheck s) hatEffect s

/-- SEED, opcode 0x09: it has no operand and cannot fault (R174). -/
def execSeed (s : State) : Host.Outcome State Fault Refusal := runCommand none reseed s

end Sys2Proof.Machine
end

