-- ==== Sys2Proof/Machine/Raster.lean ====
section
/-! DEFINITION. The raster container encoder and the command PNGE (`46_raster_encoder.md`). -/

namespace Sys2Proof.Machine

/-- `SIG`, the 8-byte signature (R232). -/
def pngSignature : List Byte := [0x89#8, 0x50#8, 0x4E#8, 0x47#8, 0x0D#8, 0x0A#8, 0x1A#8, 0x0A#8]

/-- The tag `"IHDR"` (R234). -/
def tagIHDR : List Byte := [0x49#8, 0x48#8, 0x44#8, 0x52#8]

/-- The tag `"IDAT"` (R235). -/
def tagIDAT : List Byte := [0x49#8, 0x44#8, 0x41#8, 0x54#8]

/-- The tag `"IEND"` (R235). -/
def tagIEND : List Byte := [0x49#8, 0x45#8, 0x4E#8, 0x44#8]

/-- `chunk(tag, P)`: length, tag, payload, CRC over tag and payload (R233). -/
def chunk (tag payload : List Byte) : List Byte :=
  u32be payload.length ++ tag ++ payload ++ u32be (crc32 (tag ++ payload)).toNat

/-- `ihdr(W, H)` (R234). -/
def ihdr (w h : Nat) : List Byte := u32be w ++ u32be h ++ [0x08#8, 0x06#8, 0x00#8, 0x00#8, 0x00#8]

/-- Row `y`: the filter byte 0 and the 4·W pixel bytes (R235). -/
def rasterRow (s : State) (y : Nat) : List Byte :=
  0x00#8 :: (List.range (4 * s.pixW.toNat)).map fun b => pixByte s (y * 4 * s.pixW.toNat + b)

/-- `RAW`: the rows from top to bottom (R235). -/
def rasterRaw (s : State) : List Byte := (List.range s.pixH.toNat).flatMap (rasterRow s)

/-- The container of a compressed stream `z` (R230, R232 to R235). -/
def pngContainer (w h : Nat) (z : List Byte) : List Byte :=
  pngSignature ++ chunk tagIHDR (ihdr w h) ++ chunk tagIDAT z ++ chunk tagIEND []

/-- `B` of R230. -/
def pngBytes (s : State) : List Byte :=
  pngContainer s.pixW.toNat s.pixH.toNat (compressOf s.build.compress (rasterRaw s))

/-- Checks (1) to (4) of R231; the product of (1) is taken in ℤ. -/
def pngeScalarChecks (s : State) : List (Bool × FaultRecord) :=
  [(s.pixLen.toNat == s.pixW.toNat * s.pixH.toNat * 4, invariantFault s.pixLen),
   (countOk s.pixW, badParam 0x078), (countOk s.pixH, badParam 0x080),
   (s.pixLen.toNat ≤ s.build.caps.maxPix, capacityFault 4 s.pixLen.toNat)]

/-- Check (5) of R231. -/
def pngeSizeChecks (s : State) : List (Bool × FaultRecord) :=
  [((pngBytes s).length ≤ s.build.caps.maxOut, capacityFault 8 (pngBytes s).length)]

/-- The validation of PNGE, in its order (R231). -/
def pngeCheck (s : State) : Option FaultRecord :=
  match firstFault (pngeScalarChecks s) with
  | some f => some f
  | none => firstFault (pngeSizeChecks s)

/-- The effect of PNGE: OUT and OUT_LEN (R230). -/
def pngeEffect (s : State) : State := writeOut (pngBytes s) s

/-- PNGE, opcode 0x08 (R230). -/
def execPnge (s : State) : Host.Outcome State Fault Refusal := runCommand (pngeCheck s) pngeEffect s

end Sys2Proof.Machine
end

