-- ==== Sys2Proof/Machine/Tone.lean ====
section
/-! DEFINITION. The harmonic tone synthesizer and the command TONE (`42_tone.md`). -/

namespace Sys2Proof.Machine

/-- `dur = BEATS * (60.0 / BPM)` (R161 (6), R162). -/
def noteSeconds (bpm beats : F64) : F64 := fMul beats (fDiv f60 bpm)

/-- `dur[k]` (R161). -/
def toneSeconds (s : State) (k : Nat) : F64 := noteSeconds s.bpm (melBeats s k)

/-- `n[k] = rne_int(dur[k] * sr)` (R161, R162). -/
def toneCount (s : State) (k : Nat) : Nat := sampleCount (toneSeconds s k) (srateF s)

/-- `N = Σ n[k]` (R161). -/
def toneTotal (s : State) : Nat := ((List.range s.phraseLen.toNat).map (toneCount s)).sum

/-- The waveform: two partials and the square-ish term (R160). -/
def toneWave (sin : F64 → F64) (w : F64) : F64 :=
  fAdd (fAdd (fMul f0_62 (sin w)) (fMul f0_28 (sin (fMul f2 w)))) (fMul f0_10 (fSignum (sin w)))

/-- The release of a note of `dur` seconds: `min(0.12, dur / 2.0)` (R160, R165). -/
def toneRelease (dur : F64) : F64 := fMin f0_12 (fDiv dur f2)

/-- The value of a sounding note at its local time `t`, before `quant` (R160). -/
def toneValue (sin : F64 → F64) (f dur t : F64) : F64 :=
  fMul (fMul (toneWave sin (fMul (fMul fTwoPi f) t)) (envelope t f0_01 f0_08 f0_65 (toneRelease dur) dur)) f0_7

/-- Sample `i` of a note: 0 for a rest (R160, R163). -/
def toneSample (sin : F64 → F64) (f dur sr : F64) (i : Nat) : BitVec 16 :=
  if isRest f then 0 else quant (toneValue sin f dur (fDiv (ofNatF i) sr))

/-- The samples of note `k` (R160). -/
def noteSamples (s : State) (k : Nat) : List (BitVec 16) :=
  (List.range (toneCount s k)).map (toneSample (sinOf s.build.sin) (melFreq s k) (toneSeconds s k) (srateF s))

/-- The samples of the whole note list, in order (R160). -/
def toneSamples (s : State) : List (BitVec 16) :=
  (List.range s.phraseLen.toNat).flatMap (noteSamples s)

/-- Checks (1) to (4) of R161. -/
def toneScalarChecks (s : State) : List (Bool × FaultRecord) :=
  [(positiveOk s.bpm, badParam 0x050), (srateOk s.srate, badParam 0x058),
   (countOk s.phraseLen, badParam 0x068),
   (s.phraseLen.toNat ≤ s.build.caps.maxNotes, capacityFault 1 s.phraseLen.toNat)]

/-- Check (5) of R161: FREQ then BEATS of each note in order. -/
def toneNoteChecks (s : State) : List (Bool × FaultRecord) :=
  (List.range s.phraseLen.toNat).flatMap fun k =>
    [(freqOk (melFreq s k), badParam (wordAddr .mel (freqWord k))),
     (positiveOk (melBeats s k), badParam (wordAddr .mel (beatsWord k)))]

/-- Check (6) of R161. -/
def toneSizeChecks (s : State) : List (Bool × FaultRecord) :=
  [(toneTotal s ≤ s.build.caps.maxSamples, capacityFault 3 (toneTotal s))]

/-- The validation of TONE, in its order (R161). -/
def toneCheck (s : State) : Option FaultRecord :=
  match firstFault (toneScalarChecks s) with
  | some f => some f
  | none =>
    match firstFault (toneNoteChecks s) with
    | some f => some f
    | none => firstFault (toneSizeChecks s)

/-- Samples as the words stored in SMP (R45). -/
def sampleWords (samples : List (BitVec 16)) : List Word := samples.map (·.setWidth 64)

/-- The effect of TONE: SMP and SMP_LEN (R160). -/
def toneEffect (s : State) : State :=
  { storeElems .smp 0 (sampleWords (toneSamples s)) s with smpLen := BitVec.ofNat 32 (toneTotal s) }

/-- TONE, opcode 0x02 (R160). -/
def execTone (s : State) : Host.Outcome State Fault Refusal := runCommand (toneCheck s) toneEffect s

end Sys2Proof.Machine
end

