-- ==== Sys2Proof/Machine/Sequencer.lean ====
section
/-! DEFINITION. The step sequencer, mixer and clamp and the command SEQ (`44_sequencer.md`). -/

namespace Sys2Proof.Machine

/-- `step = (60.0 / BPM) / 2.0` (R194). -/
def stepSeconds (bpm : F64) : F64 := fDiv (fDiv f60 bpm) f2

/-- `TS = PL * LOOPS` in ℤ (R190). -/
def totalSteps (s : State) : Nat := s.phraseLen.toNat * s.loops.toNat

/-- `N = rne_int((int_to_f64(TS) * step) * sr)` (R190, R194). -/
def seqTotal (s : State) : Nat :=
  sampleCount (fMul (ofNatF (totalSteps s)) (stepSeconds s.bpm)) (srateF s)

/-- Whether the drum pattern has the voice of bit `b` (0 kick, 1 snare, 2 hat) at global step `g`:
`DRUM[g mod DL]` (R42, R195). -/
def drumHit (s : State) (b g : Nat) : Bool := (drumStep s (g % s.drumLen.toNat)).getLsbD b

/-- The number of hits of a voice in the render: cK, cS, cH (R191 (12)). -/
def hitCount (s : State) (b : Nat) : Nat := (List.range (totalSteps s)).countP (drumHit s b)

/-- The pre-pass of one voice: the onset times `fl(g · step)` of its hits, ascending (R195). -/
def onsets (s : State) (b : Nat) : List F64 :=
  ((List.range (totalSteps s)).filter (drumHit s b)).map fun g => fMul (ofNatF g) (stepSeconds s.bpm)

/-- The pre-pass: the onset lists and their counts (R195). -/
def prepass (s : State) : State :=
  { storeElems .onsH 0 (onsets s 2) (storeElems .onsS 0 (onsets s 1) (storeElems .onsK 0 (onsets s 0) s)) with
    nK := BitVec.ofNat 32 (onsets s 0).length
    nS := BitVec.ofNat 32 (onsets s 1).length
    nH := BitVec.ofNat 32 (onsets s 2).length }

/-- `mel_part` for a note of frequency `f` (R198). -/
def melPart (sin : F64 → F64) (f step stepT t : F64) : F64 :=
  if isRest f then f0
  else
    fMul (fAdd (fMul f0_72 (sin (fMul (fMul fTwoPi f) t)))
        (fMul f0_28 (sin (fMul f2 (fMul (fMul fTwoPi f) t)))))
      (envelope stepT f0_005 f0_08 f0_58 f0_04 step)

/-- `bass_part` for a note of frequency `f` (R198). -/
def bassPart (sin : F64 → F64) (f step stepT t : F64) : F64 :=
  if isRest f then f0
  else
    fMul
      (fMul (fAdd (fMul f0_82 (sin (fMul (fMul fTwoPi f) t)))
          (fMul f0_18 (sin (fMul fHalf (fMul (fMul fTwoPi f) t)))))
        (envelope stepT f0_005 f0_05 f0_72 f0_03 step))
      f0_75

/-- The kick hits added in list order to `d` (R199). -/
def kickHits (sin : F64 → F64) (t : F64) : List F64 → F64 → F64
  | [], d => d
  | o :: os, d =>
    kickHits sin t os
      (if inWindow kickWindow (fSub t o) then fAdd d (fMul f0_65 (kickVoice sin (fSub t o))) else d)

/-- The snare hits added in list order to `d`, one draw per hit in its window (R199, R179). -/
def snareHits (sin : F64 → F64) (noise : NoiseState → NoiseState × F64) (t : F64) :
    List F64 → F64 → NoiseState → F64 × NoiseState
  | [], d, rng => (d, rng)
  | o :: os, d, rng =>
    if inWindow snareWindow (fSub t o) then
      snareHits sin noise t os (fAdd d (fMul f0_4 (snareVoice sin (fSub t o) (noise rng).2))) (noise rng).1
    else snareHits sin noise t os d rng

/-- The hat hits added in list order to `d`, one draw per hit in its window (R199, R179). -/
def hatHits (noise : NoiseState → NoiseState × F64) (t : F64) :
    List F64 → F64 → NoiseState → F64 × NoiseState
  | [], d, rng => (d, rng)
  | o :: os, d, rng =>
    if inWindow hatWindow (fSub t o) then
      hatHits noise t os (fAdd d (fMul f0_2 (hatVoice (fSub t o) (noise rng).2))) (noise rng).1
    else hatHits noise t os d rng

/-- `drum_part(t)`: kicks, then snares, then hats (R199). The onset lists are those the pre-pass recorded
(log 15). -/
def drumPart (sin : F64 → F64) (noise : NoiseState → NoiseState × F64) (kicks snares hats : List F64)
    (t : F64) (rng : NoiseState) : F64 × NoiseState :=
  hatHits noise t hats (snareHits sin noise t snares (kickHits sin t kicks f0) rng).1
    (snareHits sin noise t snares (kickHits sin t kicks f0) rng).2

/-- The absolute time of sample `i`: `int_to_f64(i) / sr` (R196). -/
def sampleTime (s : State) (i : Nat) : F64 := fDiv (ofNatF i) (srateF s)

/-- `step_index = floor_int(t / step) mod PL` (R197). -/
def stepIndex (s : State) (t : F64) : Nat := floorInt (fDiv t (stepSeconds s.bpm)) % s.phraseLen.toNat

/-- `melody + bass` of sample time `t` (R197, R198, R200). -/
def tonalPart (s : State) (t : F64) : F64 :=
  fAdd
    (melPart (sinOf s.build.sin) (melFreq s (stepIndex s t)) (stepSeconds s.bpm) (fMod t (stepSeconds s.bpm)) t)
    (bassPart (sinOf s.build.sin) (bassFreq s (stepIndex s t)) (stepSeconds s.bpm) (fMod t (stepSeconds s.bpm)) t)

/-- `v = 0.42 * (melody + bass) + 0.58 * drums` (R200). -/
def mixValue (tonal drums : F64) : F64 := fAdd (fMul f0_42 tonal) (fMul f0_58 drums)

/-- `drum_part` of sample `i` of the render (R199). -/
def seqDrums (s : State) (i : Nat) (rng : NoiseState) : F64 × NoiseState :=
  drumPart (sinOf s.build.sin) (noiseOf s.build.noise) (onsets s 0) (onsets s 1) (onsets s 2)
    (sampleTime s i) rng

/-- Samples `i`, `i + 1`, ..., `n` of them, with the noise state threaded through (R190, R199, R200). -/
def seqRender (s : State) : Nat → Nat → NoiseState → List (BitVec 16) × NoiseState
  | _, 0, rng => ([], rng)
  | i, n + 1, rng =>
    (quant (mixValue (tonalPart s (sampleTime s i)) (seqDrums s i rng).1)
        :: (seqRender s (i + 1) n (seqDrums s i rng).2).1,
      (seqRender s (i + 1) n (seqDrums s i rng).2).2)

/-- The whole render from the reseeded noise source (R190, R193). -/
def seqRun (s : State) : List (BitVec 16) × NoiseState := seqRender s 0 (seqTotal s) (seedOf s.build.noise)

/-- Checks (1) to (8) of R191. -/
def seqScalarChecks (s : State) : List (Bool × FaultRecord) :=
  [(positiveOk s.bpm, badParam 0x050), (srateOk s.srate, badParam 0x058), (countOk s.loops, badParam 0x060),
   (countOk s.phraseLen, badParam 0x068), (countOk s.drumLen, badParam 0x070),
   (s.phraseLen.toNat ≤ s.build.caps.maxNotes, capacityFault 1 s.phraseLen.toNat),
   (s.drumLen.toNat ≤ s.build.caps.maxDrum, capacityFault 2 s.drumLen.toNat),
   (totalSteps s ≤ 2 ^ 32, capacityFault 9 (totalSteps s))]

/-- Checks (9) and (10) of R191: every FREQ of MEL, then every FREQ of BASS. -/
def seqNoteChecks (s : State) : List (Bool × FaultRecord) :=
  ((List.range s.phraseLen.toNat).map fun k =>
      (freqOk (melFreq s k), badParam (wordAddr .mel (freqWord k)))) ++
    (List.range s.phraseLen.toNat).map fun k =>
      (freqOk (bassFreq s k), badParam (wordAddr .bass (freqWord k)))

/-- Check (11) of R191. -/
def seqSizeChecks (s : State) : List (Bool × FaultRecord) :=
  [(seqTotal s ≤ s.build.caps.maxSamples, capacityFault 3 (seqTotal s))]

/-- Check (12) of R191. -/
def seqOnsetChecks (s : State) : List (Bool × FaultRecord) :=
  [(hitCount s 0 ≤ s.build.caps.maxOnsets, capacityFault 5 (hitCount s 0)),
   (hitCount s 1 ≤ s.build.caps.maxOnsets, capacityFault 6 (hitCount s 1)),
   (hitCount s 2 ≤ s.build.caps.maxOnsets, capacityFault 7 (hitCount s 2))]

/-- The validation of SEQ, in its order (R191). -/
def seqCheck (s : State) : Option FaultRecord :=
  match firstFault (seqScalarChecks s) with
  | some f => some f
  | none =>
    match firstFault (seqNoteChecks s) with
    | some f => some f
    | none =>
      match firstFault (seqSizeChecks s) with
      | some f => some f
      | none => firstFault (seqOnsetChecks s)

/-- The effect of SEQ: the onset lists and counts, SMP, SMP_LEN, RNG (R190). -/
def seqEffect (s : State) : State :=
  { storeElems .smp 0 (sampleWords (seqRun s).1) (prepass s) with
    smpLen := BitVec.ofNat 32 (seqTotal s)
    rng := (seqRun s).2 }

/-- SEQ, opcode 0x06 (R190). -/
def execSeq (s : State) : Host.Outcome State Fault Refusal := runCommand (seqCheck s) seqEffect s

end Sys2Proof.Machine
end

