-- ==== Sys2Proof/Machine/Dispatch.lean ====
section
/-! DEFINITION. One arm per command (`30_encoding.md` R102): the accepted command, run to its end. -/

namespace Sys2Proof.Machine

def exec (i : Instr) (s : State) : Host.Outcome State Fault Refusal :=
  match i with
  | .env => Sys2Proof.Machine.execEnv s
  | .tone => Sys2Proof.Machine.execTone s
  | .kick => Sys2Proof.Machine.execKick s
  | .snare => Sys2Proof.Machine.execSnare s
  | .hat => Sys2Proof.Machine.execHat s
  | .seq => Sys2Proof.Machine.execSeq s
  | .pcmw => Sys2Proof.Machine.execPcmw s
  | .pnge => Sys2Proof.Machine.execPnge s
  | .seed => Sys2Proof.Machine.execSeed s

end Sys2Proof.Machine
end

