-- ==== Sys2Proof/Machine/Step.lean ====
section
/-! DEFINITION. One step: an event of the host, or an accepted command from its start to its end
(`60_exceptions.md` R250 to R253, R259). -/

namespace Sys2Proof.Machine

/-- One step of the machine (R13, R70, R250). -/
def step (s : State) : Host.Outcome State Fault Refusal :=
  match nextMove s with
  | .host e rest => .next (hostEvent e { s with inputs := rest })
  | .command d =>
    match decode d with
    | .ok i => exec i s
    | .error _ => .next (raiseFault (illegalCmd d) s)
  | .idle => .next s

/-- The state with the command word `w` accepted and the host waiting for its end, so that the next step runs it.
There is no fetch (R83): the command word is the data of a CMD write, and this is the state that write leaves
(R251; log 16). -/
def State.withFetchWord (s : State) (nbits w : Nat) : State :=
  { accept (BitVec.ofNat 64 (w % 2 ^ nbits)) s with inputs := hostWaits s.inputs }

end Sys2Proof.Machine
end

