-- ==== Sys2Proof/Safety.lean ====
section
/-! DEFINITION. What a legal state of the block is, and that a run never stops: the terms the statements use
(`10_state.md` R23, R24, R39; `20_memory.md` R73, R79; `60_exceptions.md` R254). -/

namespace Sys2Proof.Machine

/-- A byte of the table memory belongs to an element that exists: its region is a table's, its word index is below
the table's capacity and it is one of the bytes the element is stored in (R73, R79; log 9). -/
def cellExists (c : Caps) (a : Nat) : Bool :=
  match tableAt (a / 2 ^ 28) with
  | some t => a % 2 ^ 28 / 8 < tableWords c t && a % 8 < tableBytes t
  | none => false

/-- The byte holds no more than its element is wide: a DRUM element has three bits (R42). -/
def cellFits (x : Host.Cell) : Bool := x.1 / 2 ^ 28 != 3 || x.2.toNat < 8

/-- The table memory is in canonical form and every byte of it belongs to an existing element (R39, R79). -/
def tablesOk (s : State) : Bool :=
  Memory.wf s.mem && s.mem.all fun x => cellExists s.build.caps x.1 && cellFits x

/-- At most one of BUSY, DONE, FAULT; FCODE and FINFO are 0 without a fault, and FCODE is one of the four codes
with one (R23, R24, R254). -/
def statusOk (s : State) : Bool :=
  !(busy s && s.done) && !(busy s && s.fault) && !(s.done && s.fault) &&
  (if s.fault then 1 ≤ s.fcode.toNat && s.fcode.toNat ≤ 4 else s.fcode == 0 && s.finfo == 0)

/-- The length registers only the block writes stay within the tables they measure (R36, R37, R258). -/
def lengthsOk (s : State) : Bool :=
  s.outLen.toNat ≤ s.build.caps.maxOut && s.nK.toNat ≤ s.build.caps.maxOnsets &&
  s.nS.toNat ≤ s.build.caps.maxOnsets && s.nH.toNat ≤ s.build.caps.maxOnsets

/-- A legal state: capacities within R5, tables, flags and lengths as the rules above say. -/
def legal (s : State) : Bool := s.build.caps.wf && tablesOk s && statusOk s && lengthsOk s

/-- A step that does not stop the machine: it answers a next state. -/
def goesOn (s : State) : Prop := ∃ t, step s = .next t

/-- The block runs the command word `d` next: it is accepted and the host waits for its end (R250, R286). -/
def runsNext (s : State) (d : Word) : Prop :=
  s.running = some d ∧ ∀ i rest, s.inputs = i :: rest → i.beforeEnd = false

/-- Two states agree outside the table memory and STATUS, RESULT, SMP_LEN, OUT_LEN, the onset counts and RNG:
on everything no command ever writes (R21, R52). -/
def sameOperands (s t : State) : Prop :=
  t.tIn = s.tIn ∧ t.envA = s.envA ∧ t.envD = s.envD ∧ t.envS = s.envS ∧ t.envR = s.envR ∧ t.envT = s.envT ∧
  t.bpm = s.bpm ∧ t.srate = s.srate ∧ t.loops = s.loops ∧ t.phraseLen = s.phraseLen ∧
  t.drumLen = s.drumLen ∧ t.pixW = s.pixW ∧ t.pixH = s.pixH ∧ t.pixLen = s.pixLen ∧
  t.build = s.build ∧ t.resets = s.resets ∧ t.inputs = s.inputs ∧ t.answer = s.answer

/-! The domains of R256, by value. Values are counted in units of 2^-1074; 1.0 is `oneUnits` of them. -/

/-- Finite, with a value between `lo` and `hi` units. -/
abbrev valueIn (lo hi : Int) (x : F64) : Prop := fIsFinite x = true ∧ lo ≤ fUnits x ∧ fUnits x ≤ hi

/-- Finite, 0 ≤ x ≤ 2^32. -/
abbrev timeValue (x : F64) : Prop := valueIn 0 (2 ^ 32 * oneUnits : Nat) x

/-- Finite, 0 ≤ x ≤ 1. -/
abbrev levelValue (x : F64) : Prop := valueIn 0 oneUnits x

/-- Finite, -1 ≤ x ≤ 1. -/
abbrev unitValue (x : F64) : Prop := valueIn (-(oneUnits : Int)) oneUnits x

/-- Finite, -2^32 ≤ x ≤ 2^32. -/
abbrev hitValue (x : F64) : Prop := valueIn (-((2 ^ 32 * oneUnits : Nat) : Int)) (2 ^ 32 * oneUnits : Nat) x

/-- Finite, 2^-32 ≤ x ≤ 2^32. -/
abbrev positiveValue (x : F64) : Prop := valueIn (oneUnits / 2 ^ 32 : Nat) (2 ^ 32 * oneUnits : Nat) x

/-- FREQ: the pattern of +0.0, or a positive value (R105). -/
abbrev freqValue (x : F64) : Prop := x = 0x0000000000000000#64 ∨ positiveValue x

/-- SRATE: 1 ≤ n ≤ 2^31 - 1. -/
abbrev rateValue (n : U32) : Prop := 1 ≤ n.toNat ∧ n.toNat ≤ 2 ^ 31 - 1

/-! When a command executes normally: the conditions of its validation, by value. -/

/-- The operands of ENV are in their domains (R150). -/
abbrev envReady (s : State) : Prop :=
  timeValue s.tIn ∧ timeValue s.envA ∧ timeValue s.envD ∧ levelValue s.envS ∧ timeValue s.envR ∧ timeValue s.envT

/-- The scalar operands of TONE pass checks (1) to (4) of R161. -/
abbrev toneScalars (s : State) : Prop :=
  positiveValue s.bpm ∧ rateValue s.srate ∧ 1 ≤ s.phraseLen.toNat ∧ s.phraseLen.toNat ≤ s.build.caps.maxNotes

/-- Both words of note `k` pass check (5) of R161. -/
abbrev toneNote (s : State) (k : Nat) : Prop := freqValue (melFreq s k) ∧ positiveValue (melBeats s k)

/-- TONE passes every check of R161. -/
abbrev toneReady (s : State) : Prop :=
  toneScalars s ∧ (∀ k, k < s.phraseLen.toNat → toneNote s k) ∧ toneTotal s ≤ s.build.caps.maxSamples

/-- The index in SMP of the first sample of note `k` (R160). -/
def noteStart (s : State) (k : Nat) : Nat := ((List.range k).map (toneCount s)).sum

/-- The scalar operands of SEQ pass checks (1) to (8) of R191. -/
abbrev seqScalars (s : State) : Prop :=
  positiveValue s.bpm ∧ rateValue s.srate ∧ 1 ≤ s.loops.toNat ∧ 1 ≤ s.phraseLen.toNat ∧ 1 ≤ s.drumLen.toNat ∧
  s.phraseLen.toNat ≤ s.build.caps.maxNotes ∧ s.drumLen.toNat ≤ s.build.caps.maxDrum ∧
  s.phraseLen.toNat * s.loops.toNat ≤ 2 ^ 32

/-- SEQ passes checks (9) and (10) of R191. -/
abbrev seqNotes (s : State) : Prop :=
  (∀ k, k < s.phraseLen.toNat → freqValue (melFreq s k)) ∧ ∀ k, k < s.phraseLen.toNat → freqValue (bassFreq s k)

/-- SEQ passes every check of R191. -/
abbrev seqReady (s : State) : Prop :=
  seqScalars s ∧ seqNotes s ∧ seqTotal s ≤ s.build.caps.maxSamples ∧
  hitCount s 0 ≤ s.build.caps.maxOnsets ∧ hitCount s 1 ≤ s.build.caps.maxOnsets ∧
  hitCount s 2 ≤ s.build.caps.maxOnsets

/-- PCMW passes every check of R222. -/
abbrev pcmwReady (s : State) : Prop :=
  rateValue s.srate ∧ s.smpLen.toNat ≤ s.build.caps.maxSamples ∧ 44 + 2 * s.smpLen.toNat ≤ s.build.caps.maxOut

/-- `RAW` of R230 and R235, from the pixel buffer. -/
def pngRaw (s : State) : List Byte :=
  (List.range s.pixH.toNat).flatMap fun y =>
    0x00#8 :: (List.range (4 * s.pixW.toNat)).map fun b => pixByte s (y * 4 * s.pixW.toNat + b)

/-- PNGE passes checks (1) to (3) of R231. -/
abbrev pngeShape (s : State) : Prop :=
  s.pixLen.toNat = s.pixW.toNat * s.pixH.toNat * 4 ∧ 1 ≤ s.pixW.toNat ∧ 1 ≤ s.pixH.toNat

/-- PNGE passes every check of R231; the container is 57 bytes longer than the compressed data. -/
abbrev pngeReady (s : State) : Prop :=
  pngeShape s ∧ s.pixLen.toNat ≤ s.build.caps.maxPix ∧
  57 + (compressOf s.build.compress (pngRaw s)).length ≤ s.build.caps.maxOut

/-! What a command leaves in memory. -/

/-- The byte address `a` is one of the bytes of elements 0 to `n` - 1 of a table (R73; log 9). -/
def storedIn (t : Table) (n a : Nat) : Prop :=
  ∃ j, j < n ∧ wordAddr t j ≤ a ∧ a < wordAddr t j + tableBytes t

/-- `OUT[b]` (R44). -/
def outByte (s : State) (b : Nat) : Byte := (loadElem s .out b).setWidth 8

/-- The `n` bytes of OUT from `off` on. -/
def outBytes (s : State) (off n : Nat) : List Byte := (List.range n).map fun j => outByte s (off + j)

/-- The integer in the bytes given, the first the least significant. -/
def leValue : List Byte → Nat
  | [] => 0
  | b :: bs => b.toNat + 256 * leValue bs

/-- The integer in the bytes given, the first the most significant. -/
def beValue (bs : List Byte) : Nat := leValue bs.reverse

/-- Elements 0 to `n` - 1 of an onset list (R46). -/
def onsetList (s : State) (t : Table) (n : Nat) : List F64 := (List.range n).map (loadElem s t)

/-! Rounding. -/

/-- The finite number `r` is the one nearest to `n / d` units, with an even last bit if another is as near
(R9, R120). -/
def roundsTo (n : Int) (d : Nat) (r : F64) : Prop :=
  ∀ z : F64, fIsFinite z = true →
    (n - fUnits r * d).natAbs ≤ (n - fUnits z * d).natAbs ∧
    (fUnits z ≠ fUnits r → (n - fUnits z * d).natAbs = (n - fUnits r * d).natAbs → fMag r % 2 = 0)

end Sys2Proof.Machine
end

