-- ==== Sys2Proof/Certificates/Slice0/Obligations.lean ====
section
/-! DEFINITION. The statements for the provers, in the order of OBLIGATIONS.json. Each docstring names the rules of
spec/ it comes from. Ends of commands are spelled out as record updates or given by `raiseFault`, constants as patterns. -/

open Sys2Proof Sys2Proof.Machine

/-! ## The command word (R100 to R103) -/

/-- R100, R102: a word decodes to a command exactly when it is that command's word. -/
def Obligations.DecodeInvertsEncode : Prop :=
  ∀ (d : Word) (i : Instr), decode d = .ok i ↔ d = encode i

/-- R101: the legal words are those with bits 63:8 zero and bits 7:0 from 0x01 to 0x09. -/
def Obligations.DecoderAcceptsNineWords : Prop :=
  ∀ d : Word, (∃ i, decode d = .ok i) ↔
    (d.extractLsb' 8 56 = 0 ∧ 1 ≤ (d.extractLsb' 0 8).toNat ∧ (d.extractLsb' 0 8).toNat ≤ 9)

/-- R102: the nine words, written out, decode to their commands; a cleared word and the first opcode above the map
do not decode. -/
def Obligations.WrittenWordsDecode : Prop :=
  decode 0x0000000000000001#64 = .ok .env ∧ decode 0x0000000000000002#64 = .ok .tone ∧
  decode 0x0000000000000003#64 = .ok .kick ∧ decode 0x0000000000000004#64 = .ok .snare ∧
  decode 0x0000000000000005#64 = .ok .hat ∧ decode 0x0000000000000006#64 = .ok .seq ∧
  decode 0x0000000000000007#64 = .ok .pcmw ∧ decode 0x0000000000000008#64 = .ok .pnge ∧
  decode 0x0000000000000009#64 = .ok .seed ∧
  decode 0x0000000000000000#64 = .error .unassignedOpcode ∧
  decode 0x000000000000000A#64 = .error .unassignedOpcode ∧
  decode 0x0000000100000002#64 = .error .reservedBits

/-! ## The life of a command (R250 to R264) -/

/-- R250: when an accepted word decodes and the host's next move waits for the end, the step is the command. -/
def Obligations.StepRunsDecodedCommand : Prop :=
  ∀ (s : State) (d : Word) (i : Instr), runsNext s d → decode d = .ok i → step s = exec i s

/-- R70, U6 (log 1): a move of the host is one step; while BUSY only a move that comes before the end. -/
def Obligations.HostMoveIsOneStep : Prop :=
  ∀ (s : State) (e : HostEvent) (b : Bool) (rest : List Input), s.inputs = ⟨e, b⟩ :: rest →
    s.running = none ∨ b = true → step s = .next (hostEvent e { s with inputs := rest })

/-- R251: a CMD write that is not refused is answered OK, clears DONE, sets BUSY, and changes nothing else. -/
def Obligations.CommandWordAccepted : Prop :=
  ∀ (s : State) (d : Word), s.running = none → s.fault = false →
    hostEvent (.write 0x00000000#32 d) s = { s with running := some d, done := false, answer := some .ok } ∧
    (statusWord (hostEvent (.write 0x00000000#32 d) s)).extractLsb' 0 3 = 0b001#3

/-- R259: an illegal word is accepted like any other and faults in the next step, with the word in FINFO and no
other change. -/
def Obligations.IllegalWordFaults : Prop :=
  ∀ (s : State) (d : Word) (b : Bool) (rest : List Input), s.running = none → s.fault = false →
    s.inputs = ⟨.write 0x00000000#32 d, b⟩ :: rest →
    (∀ j more, rest = j :: more → j.beforeEnd = false) →
    (d.extractLsb' 8 56 ≠ 0 ∨ (d.extractLsb' 0 8).toNat = 0 ∨ 9 < (d.extractLsb' 0 8).toNat) →
    ∃ a t, step s = .next a ∧ busy a = true ∧ a.done = false ∧ step a = .next t ∧
      t = { s with done := false, fault := true, fcode := 1, finfo := d, inputs := rest, answer := some .ok } ∧
      statusWord t = 0x0104#64

/-- R250, R252, R253: from every state every command ends, either successfully, with BUSY cleared, DONE set and the
fault record as it was, or in a fault that changes nothing but STATUS and FINFO. -/
def Obligations.CommandEndsOneWay : Prop :=
  ∀ (i : Instr) (s : State), ∃ t, exec i s = .next t ∧
    ((t.running = none ∧ t.done = true ∧ t.fault = s.fault ∧ t.fcode = s.fcode ∧ t.finfo = s.finfo ∧
        (s.fault = false → s.fcode = 0 → statusWord t = 0x0002#64)) ∨
      ∃ (code : BitVec 8) (info : Word), 2 ≤ code.toNat ∧ code.toNat ≤ 4 ∧
        t = { s with running := none, done := false, fault := true, fcode := code, finfo := info } ∧
        statusWord t = BitVec.ofNat 64 (256 * code.toNat + 4))

/-- R23, R264: a STATUS write of an idle block clears DONE by bit 1, and FAULT, FCODE and FINFO together by bit 2;
its other bits do nothing, and nothing else changes. -/
def Obligations.StatusWriteClears : Prop :=
  ∀ (s : State) (d : Word), s.running = none →
    hostEvent (.write 0x00000008#32 d) s =
      { s with
        done := s.done && !d.getLsbD 1
        fault := s.fault && !d.getLsbD 2
        fcode := if d.getLsbD 2 then 0 else s.fcode
        finfo := if d.getLsbD 2 then 0 else s.finfo
        answer := some .ok }

/-- R53, R280, R281: a reset at any moment, a command in progress or not, leaves every register at its reset value
and the noise source seeded; so does `State.reset`. Model's choice (log 3, 8, 14): the block's parameters stay, and
a table byte is free again. -/
def Obligations.ResetLeavesResetValues : Prop :=
  (∀ (s t : State), t = hostEvent .reset s ∨ t = State.reset →
    (∀ r, r ≠ .id → readReg t r = 0) ∧ readReg t .id = 0x0000000050534307#64 ∧
    t.running = none ∧ t.done = false ∧ t.fault = false ∧ t.rng = seedOf t.build.noise) ∧
  ∀ s : State, (hostEvent .reset s).build = s.build ∧
    ∀ a, readByte (hostEvent .reset s) a = Config.unwritten (s.resets + 1) a

/-! ## The host interface (R70 to R77) -/

/-- R21, R72: a write to an RW register of an idle block is answered OK and read back, an F64 register whole, a u32
register its low 32 bits; every other register, the tables and RNG are unchanged. -/
def Obligations.RegisterWriteThenRead : Prop :=
  ∀ (s t : State) (d : Word) (r : Reg), s.running = none → regAccess r = .readWrite →
    t = hostEvent (.write (BitVec.ofNat 32 (regOffset r)) d) s →
    t.answer = some .ok ∧
    busRead t (BitVec.ofNat 32 (regOffset r)) = .okData
      (if r ∈ [Reg.tIn, .envA, .envD, .envS, .envR, .envT, .bpm] then d else (d.setWidth 32).setWidth 64) ∧
    (∀ q, q ≠ r → readReg t q = readReg s q) ∧
    t.mem = s.mem ∧ t.rng = s.rng ∧ t.build = s.build ∧ t.resets = s.resets ∧ t.inputs = s.inputs

/-- R39, R72, R73: a write to a host-writable table word of an idle block is answered OK and read back, cut to the
element's width; every register, every other element and every byte outside the element are unchanged. -/
def Obligations.TableWriteThenRead : Prop :=
  ∀ (s t : State) (d : Word) (tb : Table) (w : Nat), s.build.caps.wf = true → s.running = none →
    tableHostWrites tb = true → w < tableWords s.build.caps tb →
    t = hostEvent (.write (BitVec.ofNat 32 (wordAddr tb w)) d) s →
    t = { s with mem := t.mem, answer := some .ok } ∧
    busRead t (BitVec.ofNat 32 (wordAddr tb w)) = .okData (BitVec.ofNat 64 (d.toNat % 2 ^ tableBits tb)) ∧
    (∀ ub x, x < tableWords s.build.caps ub → tb ≠ ub ∨ w ≠ x → loadElem t ub x = loadElem s ub x) ∧
    ∀ a, a < wordAddr tb w ∨ wordAddr tb w + tableBytes tb ≤ a → readByte t a = readByte s a

/-- R21, R38, R39, R71, R73: a read of an idle block changes nothing but the answer. Of a register it answers its
value, a u32 register zero-extended, CMD as 0 and ID as its constant; of every word of a table below its capacity it
answers the element, which is what its bytes hold, the first the least significant (model's choice, log 9),
zero-extended. -/
def Obligations.ReadsAnswerTheLocation : Prop :=
  ∀ s : State, s.running = none →
    (∀ (offset : Addr) (v : Word),
      (offset, v) ∈
        [(0x000#32, 0x0000000000000000#64), (0x008#32, statusWord s), (0x010#32, s.finfo), (0x018#32, s.result),
          (0x020#32, s.tIn), (0x028#32, s.envA), (0x030#32, s.envD), (0x038#32, s.envS), (0x040#32, s.envR),
          (0x048#32, s.envT), (0x050#32, s.bpm), (0x058#32, s.srate.setWidth 64), (0x060#32, s.loops.setWidth 64),
          (0x068#32, s.phraseLen.setWidth 64), (0x070#32, s.drumLen.setWidth 64), (0x078#32, s.pixW.setWidth 64),
          (0x080#32, s.pixH.setWidth 64), (0x088#32, s.pixLen.setWidth 64), (0x090#32, s.smpLen.setWidth 64),
          (0x098#32, s.outLen.setWidth 64), (0x0A0#32, s.nK.setWidth 64), (0x0A8#32, s.nS.setWidth 64),
          (0x0B0#32, s.nH.setWidth 64), (0x0B8#32, 0x0000000050534307#64)] →
      hostEvent (.read offset) s = { s with answer := some (.okData v) }) ∧
    ∀ (tb : Table) (base bits cap w : Nat), s.build.caps.wf = true →
      (tb, base, bits, cap) ∈
        [(Table.mel, 0x10000000, 64, 2 * s.build.caps.maxNotes), (.bass, 0x20000000, 64, 2 * s.build.caps.maxNotes),
          (.drum, 0x30000000, 3, s.build.caps.maxDrum), (.pix, 0x40000000, 8, s.build.caps.maxPix),
          (.smp, 0x50000000, 16, s.build.caps.maxSamples), (.out, 0x60000000, 8, s.build.caps.maxOut),
          (.onsK, 0x70000000, 64, s.build.caps.maxOnsets), (.onsS, 0x80000000, 64, s.build.caps.maxOnsets),
          (.onsH, 0x90000000, 64, s.build.caps.maxOnsets)] →
      w < cap →
      hostEvent (.read (BitVec.ofNat 32 (base + 8 * w))) s = { s with answer := some (.okData (loadElem s tb w)) } ∧
      (loadElem s tb w).toNat =
        leValue ((List.range ((bits + 7) / 8)).map fun j => readByte s (base + 8 * w + j)) % 2 ^ bits

/-- R74, R75: misaligned addresses, regions 0xA to 0xF, register offsets from 0x0C0 on and word indices at or above
the capacity are refused; so is a write to a read-only register or table; a read of CMD returns 0. A refusal changes
nothing but the answer. -/
def Obligations.AbsentAndReadOnlyRefused : Prop :=
  ∀ (s : State) (a : Addr) (d : Word),
    (a.toNat % 8 ≠ 0 ∨ 10 ≤ a.toNat / 2 ^ 28 ∨ (a.toNat < 2 ^ 28 ∧ 0x0C0 ≤ a.toNat) ∨
        (∃ tb, a.toNat / 2 ^ 28 = tableRegion tb ∧ tableWords s.build.caps tb ≤ a.toNat % 2 ^ 28 / 8) →
      hostEvent (.read a) s = { s with answer := some .err } ∧
      hostEvent (.write a d) s = { s with answer := some .err }) ∧
    (a.toNat ∈ [0x010, 0x018, 0x098, 0x0A0, 0x0A8, 0x0B0, 0x0B8] ∨ (6 ≤ a.toNat / 2 ^ 28 ∧ a.toNat / 2 ^ 28 ≤ 9) →
      hostEvent (.write a d) s = { s with answer := some .err }) ∧
    (s.running = none → hostEvent (.read 0x00000000#32) s = { s with answer := some (.okData 0) })

/-- R76: while BUSY every transaction but a STATUS read is refused and changes nothing; the STATUS read shows
BUSY = 1. -/
def Obligations.BusyRefusesAllButStatusRead : Prop :=
  ∀ s : State, s.running.isSome = true →
    (∀ a, a ≠ 0x00000008#32 → hostEvent (.read a) s = { s with answer := some .err }) ∧
    (∀ a d, hostEvent (.write a d) s = { s with answer := some .err }) ∧
    ∃ v : Word, hostEvent (.read 0x00000008#32) s = { s with answer := some (.okData v) } ∧ v.getLsbD 0 = true

/-- R77: while FAULT a CMD write is refused; every other transaction of an idle block is handled as if FAULT were 0,
but for what STATUS reads; a STATUS write can clear the fault. -/
def Obligations.FaultRefusesCommandsOnly : Prop :=
  ∀ s : State, s.running = none → s.fault = true →
    (∀ d, hostEvent (.write 0x00000000#32 d) s = { s with answer := some .err }) ∧
    (∀ a d, a ≠ 0x00000000#32 → a ≠ 0x00000008#32 →
      hostEvent (.write a d) s = { hostEvent (.write a d) { s with fault := false } with fault := true }) ∧
    (∀ d, (hostEvent (.write 0x00000008#32 d) s).answer = some .ok ∧
      (hostEvent (.write 0x00000008#32 d) s).fault = !d.getLsbD 2) ∧
    ∀ a, a ≠ 0x00000008#32 → (hostEvent (.read a) s).answer = (hostEvent (.read a) { s with fault := false }).answer

/-- R23: the fields of STATUS. -/
def Obligations.StatusFields : Prop :=
  ∀ s : State, busRead s 0x00000008#32 = .okData (statusWord s) ∧
    (statusWord s).getLsbD 0 = s.running.isSome ∧ (statusWord s).getLsbD 1 = s.done ∧
    (statusWord s).getLsbD 2 = s.fault ∧ (statusWord s).extractLsb' 3 5 = 0 ∧
    (statusWord s).extractLsb' 8 8 = s.fcode ∧ (statusWord s).extractLsb' 16 48 = 0

/-! ## ENV (R150 to R153) -/

/-- R150, R151: with every operand in its domain ENV ends successfully; RESULT is the envelope of its four segments,
the tests made in order by value, the divisors floored at EPS; nothing else but STATUS changes. -/
def Obligations.EnvWritesEnvelope : Prop :=
  ∀ s : State, envReady s →
    exec .env s = .next
      { s with
        result :=
          if fUnits s.tIn < fUnits s.envA then
            fDiv s.tIn (if fUnits s.envA < fUnits Config.eps then Config.eps else s.envA)
          else if fUnits s.tIn < fUnits (fAdd s.envA s.envD) then
            fSub 0x3FF0000000000000#64 (fMul (fSub 0x3FF0000000000000#64 s.envS)
              (fDiv (fSub s.tIn s.envA) (if fUnits s.envD < fUnits Config.eps then Config.eps else s.envD)))
          else if fUnits s.tIn < fUnits (fSub s.envT s.envR) then s.envS
          else
            fMul s.envS (fClamp
              (fDiv (fSub s.envT s.tIn) (if fUnits s.envR < fUnits Config.eps then Config.eps else s.envR))
              0x0000000000000000#64 0x3FF0000000000000#64)
        running := none
        done := true }

/-- R150, R256: ENV reports the first operand, in its order, that is outside its domain, and changes nothing else. -/
def Obligations.EnvRejectsFirstBadOperand : Prop :=
  ∀ (s : State) (pre post : List (F64 × Nat × Nat)) (x : F64) (hi addr : Nat),
    [(s.tIn, 2 ^ 32, 0x020), (s.envA, 2 ^ 32, 0x028), (s.envD, 2 ^ 32, 0x030), (s.envS, 1, 0x038),
      (s.envR, 2 ^ 32, 0x040), (s.envT, 2 ^ 32, 0x048)] = pre ++ (x, hi, addr) :: post →
    (∀ c ∈ pre, valueIn 0 (c.2.1 * oneUnits : Nat) c.1) → ¬ valueIn 0 (hi * oneUnits : Nat) x →
    exec .env s = .next
      { s with running := none, done := false, fault := true, fcode := 2, finfo := BitVec.ofNat 64 addr }

/-- R152 (a): the envelope is in [0, 1], whether or not the invariants of R153 hold. -/
def Obligations.EnvelopeInUnitRange : Prop :=
  ∀ t a d s r total : F64, timeValue t → timeValue a → timeValue d → levelValue s → timeValue r → timeValue total →
    levelValue (envelope t a d s r total)

/-- R152 (b), (c), (d), (e), (g), (h): the envelope at its special times; "0" is either zero, by value (log 17). -/
def Obligations.EnvelopeAtSpecialTimes : Prop :=
  ∀ t a d s r total : F64, timeValue t → timeValue a → timeValue d → levelValue s → timeValue r → timeValue total →
    (fUnits t = 0 → 0 < fUnits a → fUnits (envelope t a d s r total) = 0) ∧
    (fUnits a + fUnits d ≤ fUnits total → 0 < fUnits r → fUnits r ≤ fUnits total →
      fUnits (envelope total a d s r total) = 0) ∧
    (fUnits a + fUnits d ≤ fUnits t → fUnits t < fUnits (fSub total r) → envelope t a d s r total = s) ∧
    (fUnits a + fUnits d ≤ fUnits t → fUnits total < fUnits t → fUnits (envelope t a d s r total) = 0) ∧
    (fUnits t = 0 → fUnits a = 0 → 0 < fUnits d → envelope t a d s r total = 0x3FF0000000000000#64) ∧
    (fUnits t = 0 → fUnits a = 0 → fUnits d = 0 → 0 < fUnits (fSub total r) → envelope t a d s r total = s) ∧
    (fUnits r = 0 → fUnits a + fUnits d ≤ fUnits t → fUnits t < fUnits total → envelope t a d s r total = s) ∧
    (fUnits r = 0 → fUnits a + fUnits d ≤ fUnits t → fUnits total ≤ fUnits t →
      fUnits (envelope t a d s r total) = 0)

/-- R152 (f): from the start of the release on the envelope never rises. -/
def Obligations.EnvelopeReleaseNeverRises : Prop :=
  ∀ t u a d s r total : F64, timeValue t → timeValue u → timeValue a → timeValue d → levelValue s → timeValue r →
    timeValue total → fUnits a + fUnits d ≤ fUnits t → fUnits (fSub total r) ≤ fUnits t → fUnits t ≤ fUnits u →
    fUnits (envelope u a d s r total) ≤ fUnits (envelope t a d s r total)

/-! ## TONE (R160 to R165) -/

/-- R160, R162, R165: TONE with legal operands ends successfully; note `k` takes the samples from `noteStart s k` on,
each the formula of R160 at its note-local time, 0 for a rest; SMP_LEN is the total; nothing else changes, no byte
outside those samples. -/
def Obligations.ToneRendersNotes : Prop :=
  ∀ s : State, s.build.caps.wf = true → toneReady s → ∃ t, exec .tone s = .next t ∧
    t = { s with mem := t.mem, smpLen := t.smpLen, running := none, done := true } ∧
    t.smpLen.toNat = noteStart s s.phraseLen.toNat ∧
    (∀ k i, k < s.phraseLen.toNat →
      i < rneInt (fMul (fMul (melBeats s k) (fDiv 0x404E000000000000#64 s.bpm)) (ofNatF s.srate.toNat)) →
      ∀ dur t0 w wave e : F64,
        dur = fMul (melBeats s k) (fDiv 0x404E000000000000#64 s.bpm) →
        t0 = fDiv (ofNatF i) (ofNatF s.srate.toNat) →
        w = fMul (fMul 0x401921FB54442D18#64 (melFreq s k)) t0 →
        wave = fAdd
          (fAdd (fMul 0x3FE3D70A3D70A3D7#64 (sinOf s.build.sin w))
            (fMul 0x3FD1EB851EB851EC#64 (sinOf s.build.sin (fMul 0x4000000000000000#64 w))))
          (fMul 0x3FB999999999999A#64 (fSignum (sinOf s.build.sin w))) →
        e = envelope t0 0x3F847AE147AE147B#64 0x3FB47AE147AE147B#64 0x3FE4CCCCCCCCCCCD#64
          (if fUnits (fDiv dur 0x4000000000000000#64) < fUnits 0x3FBEB851EB851EB8#64
            then fDiv dur 0x4000000000000000#64 else 0x3FBEB851EB851EB8#64) dur →
        sampleAt t (noteStart s k + i) =
          if melFreq s k = 0 then 0 else quant (fMul (fMul wave e) 0x3FE6666666666666#64)) ∧
    ∀ a, ¬ storedIn .smp (noteStart s s.phraseLen.toNat) a → readByte t a = readByte s a

/-- R161: the first check of TONE that fails decides its fault, which changes nothing else; a total of 0 samples is
no fault, it only sets SMP_LEN to 0. -/
def Obligations.ToneRejectsFirstBadOperand : Prop :=
  ∀ (s : State) (total : Nat),
    total = ((List.range s.phraseLen.toNat).map fun k =>
      rneInt (fMul (fMul (melBeats s k) (fDiv 0x404E000000000000#64 s.bpm)) (ofNatF s.srate.toNat))).sum →
    (¬ positiveValue s.bpm → exec .tone s = .next (raiseFault ⟨2, 0x050#64⟩ s)) ∧
    (positiveValue s.bpm → ¬ rateValue s.srate → exec .tone s = .next (raiseFault ⟨2, 0x058#64⟩ s)) ∧
    (positiveValue s.bpm → rateValue s.srate → s.phraseLen = 0 →
      exec .tone s = .next (raiseFault ⟨2, 0x068#64⟩ s)) ∧
    (positiveValue s.bpm → rateValue s.srate → 1 ≤ s.phraseLen.toNat → s.build.caps.maxNotes < s.phraseLen.toNat →
      exec .tone s = .next (raiseFault ⟨4, BitVec.ofNat 64 (1 * 2 ^ 56 + s.phraseLen.toNat)⟩ s)) ∧
    (∀ k, toneScalars s → k < s.phraseLen.toNat → (∀ j, j < k → toneNote s j) →
      (¬ freqValue (melFreq s k) →
        exec .tone s = .next (raiseFault ⟨2, BitVec.ofNat 64 (0x10000000 + 16 * k)⟩ s)) ∧
      (freqValue (melFreq s k) → ¬ positiveValue (melBeats s k) →
        exec .tone s = .next (raiseFault ⟨2, BitVec.ofNat 64 (0x10000000 + 16 * k + 8)⟩ s))) ∧
    (toneScalars s → (∀ k, k < s.phraseLen.toNat → toneNote s k) →
      s.build.caps.maxSamples < total →
      exec .tone s = .next (raiseFault ⟨4, BitVec.ofNat 64 (3 * 2 ^ 56 + min total (2 ^ 56 - 1))⟩ s)) ∧
    (toneScalars s → (∀ k, k < s.phraseLen.toNat → toneNote s k) → total = 0 →
      exec .tone s = .next { s with smpLen := 0, running := none, done := true })

/-- R163, R164 (b): after a successful TONE every sample of a rest and the first sample of every note are 0. -/
def Obligations.ToneRestsAndStartsSilent : Prop :=
  ∀ s t : State, s.build.caps.wf = true → exec .tone s = .next t → t.done = true →
    ∀ k i, k < s.phraseLen.toNat → i < toneCount s k → melFreq s k = 0 ∨ i = 0 → sampleAt t (noteStart s k + i) = 0

/-- R164 (a): the headroom factor keeps every TONE sample within ±22937, for every lawful sine. -/
def Obligations.ToneSamplesWithinHeadroom : Prop :=
  ∀ s t : State, s.build.caps.wf = true → exec .tone s = .next t → t.done = true →
    ∀ i, i < t.smpLen.toNat → -22937 ≤ (sampleAt t i).toInt ∧ (sampleAt t i).toInt ≤ 22937

/-! ## KICK, SNARE, HAT, SEED (R170 to R179) -/

/-- R171, R175, R178: KICK with T_IN in its domain ends successfully; RESULT is the swept sine inside the window
[0, 0.2], +0.0 outside; nothing else but STATUS changes. -/
def Obligations.KickWritesVoice : Prop :=
  ∀ (s : State) (fr amp : F64), hitValue s.tIn →
    fr = (if fUnits s.tIn < fUnits 0x3FBEB851EB851EB8#64 then
        fSub 0x405E000000000000#64 (fMul 0x4051800000000000#64 (fDiv s.tIn 0x3FBEB851EB851EB8#64))
      else 0x4049000000000000#64) →
    amp = ampLin s.tIn 0x3FC70A3D70A3D70A#64 →
    exec .kick s = .next
      { s with
        result :=
          if 0 ≤ fUnits s.tIn ∧ fUnits s.tIn ≤ fUnits 0x3FC999999999999A#64 then
            fMul (sinOf s.build.sin (fMul (fMul 0x401921FB54442D18#64 fr) s.tIn)) amp
          else 0
        running := none
        done := true }

/-- R172, R176, R178, R179: SNARE inside the window [0, 0.17] draws one noise value and mixes it with the 190 Hz sine;
outside it gives +0.0 and draws none; nothing else but STATUS changes. -/
def Obligations.SnareWritesVoice : Prop :=
  ∀ s : State, hitValue s.tIn →
    exec .snare s = .next
      (if 0 ≤ fUnits s.tIn ∧ fUnits s.tIn ≤ fUnits 0x3FC5C28F5C28F5C3#64 then
        { s with
          result :=
            fMul
              (fAdd (fMul 0x3FE70A3D70A3D70A#64 (noiseOf s.build.noise s.rng).2)
                (fMul 0x3FD1EB851EB851EC#64 (sinOf s.build.sin (fMul 0x4092A738888A9978#64 s.tIn))))
              (ampLin s.tIn 0x3FC47AE147AE147B#64)
          rng := (noiseOf s.build.noise s.rng).1
          running := none
          done := true }
      else { s with result := 0, running := none, done := true })

/-- R173, R177, R178, R179: HAT inside the window [0, 0.07] draws one noise value and scales it; outside it gives +0.0
and draws none; nothing else but STATUS changes. -/
def Obligations.HatWritesVoice : Prop :=
  ∀ s : State, hitValue s.tIn →
    exec .hat s = .next
      (if 0 ≤ fUnits s.tIn ∧ fUnits s.tIn ≤ fUnits 0x3FB1EB851EB851EC#64 then
        { s with
          result := fMul (noiseOf s.build.noise s.rng).2 (ampLin s.tIn 0x3FAEB851EB851EB8#64)
          rng := (noiseOf s.build.noise s.rng).1
          running := none
          done := true }
      else { s with result := 0, running := none, done := true })

/-- R171 to R173, R256: the three voices fault with BAD_PARAM 0x020 on every T_IN outside their domain, and change
nothing else: no noise value is drawn. -/
def Obligations.VoicesRejectTime : Prop :=
  ∀ (i : Instr) (s : State), i = .kick ∨ i = .snare ∨ i = .hat → ¬ hitValue s.tIn →
    exec i s = .next { s with running := none, done := false, fault := true, fcode := 2, finfo := 0x020#64 }

/-- R170: the amplitude is `1.0 - dt / L` where that is above 0, else +0.0: 1 at dt = 0, within [0, 1] for dt ≥ 0,
never rising, and +0.0 from dt = L on. -/
def Obligations.AmplitudeDecaysToZero : Prop :=
  ∀ dt du len : F64, fIsFinite dt = true → fIsFinite du = true → fIsFinite len = true → 0 < fUnits len →
    0 ≤ fUnits dt → fUnits dt ≤ fUnits du →
    ampLin dt len =
      (if 0 < fUnits (fSub 0x3FF0000000000000#64 (fDiv dt len)) then fSub 0x3FF0000000000000#64 (fDiv dt len)
        else 0x0000000000000000#64) ∧
    levelValue (ampLin dt len) ∧ fUnits (ampLin du len) ≤ fUnits (ampLin dt len) ∧
    (fUnits dt = 0 → ampLin dt len = 0x3FF0000000000000#64) ∧
    (fUnits len ≤ fUnits dt → ampLin dt len = 0x0000000000000000#64)

/-- R175, R176, R177: inside its window each voice is within [-1, 1], for every lawful sine and every noise value in
[-1, 1]. -/
def Obligations.VoicesWithinUnit : Prop :=
  ∀ (b : Impl) (dt n : F64), fIsFinite dt = true → 0 ≤ fUnits dt → unitValue n →
    (fUnits dt ≤ fUnits 0x3FC999999999999A#64 → unitValue (kickVoice (sinOf b) dt)) ∧
    (fUnits dt ≤ fUnits 0x3FC5C28F5C28F5C3#64 → unitValue (snareVoice (sinOf b) dt n)) ∧
    (fUnits dt ≤ fUnits 0x3FB1EB851EB851EC#64 → unitValue (hatVoice dt n))

/-- R174: SEED sets RNG to the seed, in every state, and changes nothing else but STATUS; the seed of NOISE_REF is
0x539. -/
def Obligations.SeedReseeds : Prop :=
  ∀ s : State, exec .seed s = .next { s with rng := seedOf s.build.noise, running := none, done := true } ∧
    (s.build.noise = .reference → seedOf s.build.noise = 0x00000539)

/-! ## SEQ (R190 to R201) -/

/-- R191 (12), R195: SEQ with legal operands ends successfully, and the onset lists it leaves hold `fl(g · step)` for
every global step `g` whose drum entry, indexed by g mod DL, has the voice's bit, in ascending order. -/
def Obligations.SeqRecordsOnsets : Prop :=
  ∀ (s : State) (onsetTimes : Nat → List F64), s.build.caps.wf = true → seqReady s →
    onsetTimes = (fun b =>
      ((List.range (s.phraseLen.toNat * s.loops.toNat)).filter
        fun g => (drumStep s (g % s.drumLen.toNat)).getLsbD b).map
        fun g => fMul (ofNatF g) (fDiv (fDiv 0x404E000000000000#64 s.bpm) 0x4000000000000000#64)) →
    ∃ t, exec .seq s = .next t ∧
      onsetList t .onsK t.nK.toNat = onsetTimes 0 ∧ onsetList t .onsS t.nS.toNat = onsetTimes 1 ∧
      onsetList t .onsH t.nH.toNat = onsetTimes 2

/-- R190, R193, R194, R196 to R200: SEQ with legal operands ends successfully; sample `i` is the mix of melody, bass
and drums at the absolute time i / sr, each spelled out: two partials under an envelope local to the step, the bass at
weight 0.75, +0.0 for a rest; the kicks, then the snares, then the hats of the lists that are in their window, in list
order, one draw for each snare and hat. The noise state `ρ i` is threaded from the seed through the draws of every
sample to RNG; SMP_LEN, N_K, N_S and N_H are the counts; nothing else changes, no byte outside SMP and the onset
lists. -/
def Obligations.SeqRendersMix : Prop :=
  ∀ (s : State) (step sr : F64), s.build.caps.wf = true → seqReady s →
    step = fDiv (fDiv 0x404E000000000000#64 s.bpm) 0x4000000000000000#64 → sr = ofNatF s.srate.toNat →
    ∃ t, exec .seq s = .next t ∧
      t = { s with
            mem := t.mem, smpLen := t.smpLen, rng := t.rng, nK := t.nK, nS := t.nS, nH := t.nH,
            running := none, done := true } ∧
      t.smpLen.toNat = rneInt (fMul (fMul (ofNatF (s.phraseLen.toNat * s.loops.toNat)) step) sr) ∧
      t.nK.toNat = hitCount s 0 ∧ t.nS.toNat = hitCount s 1 ∧ t.nH.toNat = hitCount s 2 ∧
      (∃ ρ : Nat → NoiseState, ρ 0 = seedOf s.build.noise ∧ t.rng = ρ t.smpLen.toNat ∧
        ∀ i, i < t.smpLen.toNat →
          ∀ (time stepT wm wb mel bass kicks : F64) (k : Nat) (snares drums : F64 × NoiseState),
          time = fDiv (ofNatF i) sr → k = floorInt (fDiv time step) % s.phraseLen.toNat → stepT = fMod time step →
          wm = fMul (fMul 0x401921FB54442D18#64 (melFreq s k)) time →
          wb = fMul (fMul 0x401921FB54442D18#64 (bassFreq s k)) time →
          mel =
            (if melFreq s k = 0 then 0
            else
              fMul
                (fAdd (fMul 0x3FE70A3D70A3D70A#64 (sinOf s.build.sin wm))
                  (fMul 0x3FD1EB851EB851EC#64 (sinOf s.build.sin (fMul 0x4000000000000000#64 wm))))
                (envelope stepT 0x3F747AE147AE147B#64 0x3FB47AE147AE147B#64 0x3FE28F5C28F5C28F#64
                  0x3FA47AE147AE147B#64 step)) →
          bass =
            (if bassFreq s k = 0 then 0
            else
              fMul
                (fMul
                  (fAdd (fMul 0x3FEA3D70A3D70A3D#64 (sinOf s.build.sin wb))
                    (fMul 0x3FC70A3D70A3D70A#64 (sinOf s.build.sin (fMul 0x3FE0000000000000#64 wb))))
                  (envelope stepT 0x3F747AE147AE147B#64 0x3FA999999999999A#64 0x3FE70A3D70A3D70A#64
                    0x3F9EB851EB851EB8#64 step))
                0x3FE8000000000000#64) →
          kicks = (onsetList t .onsK t.nK.toNat).foldl
            (fun d o =>
              if 0 ≤ fUnits (fSub time o) ∧ fUnits (fSub time o) ≤ fUnits 0x3FC999999999999A#64 then
                fAdd d (fMul 0x3FE4CCCCCCCCCCCD#64 (kickVoice (sinOf s.build.sin) (fSub time o)))
              else d)
            0 →
          snares = (onsetList t .onsS t.nS.toNat).foldl
            (fun d o =>
              if 0 ≤ fUnits (fSub time o) ∧ fUnits (fSub time o) ≤ fUnits 0x3FC5C28F5C28F5C3#64 then
                (fAdd d.1 (fMul 0x3FD999999999999A#64
                  (snareVoice (sinOf s.build.sin) (fSub time o) (noiseOf s.build.noise d.2).2)),
                  (noiseOf s.build.noise d.2).1)
              else d)
            (kicks, ρ i) →
          drums = (onsetList t .onsH t.nH.toNat).foldl
            (fun d o =>
              if 0 ≤ fUnits (fSub time o) ∧ fUnits (fSub time o) ≤ fUnits 0x3FB1EB851EB851EC#64 then
                (fAdd d.1 (fMul 0x3FC999999999999A#64 (hatVoice (fSub time o) (noiseOf s.build.noise d.2).2)),
                  (noiseOf s.build.noise d.2).1)
              else d)
            snares →
          drums.2 = ρ (i + 1) ∧
          sampleAt t i = quant (fAdd (fMul 0x3FDAE147AE147AE1#64 (fAdd mel bass))
            (fMul 0x3FE28F5C28F5C28F#64 drums.1))) ∧
      ∀ a, ¬ storedIn .smp t.smpLen.toNat a → ¬ storedIn .onsK t.nK.toNat a → ¬ storedIn .onsS t.nS.toNat a →
        ¬ storedIn .onsH t.nH.toNat a → readByte t a = readByte s a

/-- R191: the first check of SEQ that fails decides its fault, which changes nothing else; a render of 0 samples is
no fault, it still records the onsets, the lists as R195 gives them. -/
def Obligations.SeqRejectsFirstBadOperand : Prop :=
  ∀ (s : State) (total : Nat) (hits : Nat → Nat) (times : Nat → List F64),
    total = rneInt (fMul (fMul (ofNatF (s.phraseLen.toNat * s.loops.toNat))
      (fDiv (fDiv 0x404E000000000000#64 s.bpm) 0x4000000000000000#64)) (ofNatF s.srate.toNat)) →
    hits = (fun b => ((List.range (s.phraseLen.toNat * s.loops.toNat)).filter
      fun g => (drumStep s (g % s.drumLen.toNat)).getLsbD b).length) →
    times = (fun b =>
      ((List.range (s.phraseLen.toNat * s.loops.toNat)).filter
        fun g => (drumStep s (g % s.drumLen.toNat)).getLsbD b).map
        fun g => fMul (ofNatF g) (fDiv (fDiv 0x404E000000000000#64 s.bpm) 0x4000000000000000#64)) →
    (¬ positiveValue s.bpm → exec .seq s = .next (raiseFault ⟨2, 0x050#64⟩ s)) ∧
    (positiveValue s.bpm → ¬ rateValue s.srate → exec .seq s = .next (raiseFault ⟨2, 0x058#64⟩ s)) ∧
    (positiveValue s.bpm → rateValue s.srate →
      (s.loops = 0 → exec .seq s = .next (raiseFault ⟨2, 0x060#64⟩ s)) ∧
      (s.loops ≠ 0 → s.phraseLen = 0 → exec .seq s = .next (raiseFault ⟨2, 0x068#64⟩ s)) ∧
      (s.loops ≠ 0 → s.phraseLen ≠ 0 → s.drumLen = 0 → exec .seq s = .next (raiseFault ⟨2, 0x070#64⟩ s)) ∧
      (s.loops ≠ 0 → s.phraseLen ≠ 0 → s.drumLen ≠ 0 →
        (s.build.caps.maxNotes < s.phraseLen.toNat →
          exec .seq s = .next (raiseFault ⟨4, BitVec.ofNat 64 (1 * 2 ^ 56 + s.phraseLen.toNat)⟩ s)) ∧
        (s.phraseLen.toNat ≤ s.build.caps.maxNotes → s.build.caps.maxDrum < s.drumLen.toNat →
          exec .seq s = .next (raiseFault ⟨4, BitVec.ofNat 64 (2 * 2 ^ 56 + s.drumLen.toNat)⟩ s)) ∧
        (s.phraseLen.toNat ≤ s.build.caps.maxNotes → s.drumLen.toNat ≤ s.build.caps.maxDrum →
          2 ^ 32 < s.phraseLen.toNat * s.loops.toNat →
          exec .seq s = .next
            (raiseFault
              ⟨4, BitVec.ofNat 64 (9 * 2 ^ 56 + min (s.phraseLen.toNat * s.loops.toNat) (2 ^ 56 - 1))⟩ s)))) ∧
    (∀ k, seqScalars s → k < s.phraseLen.toNat → (∀ j, j < k → freqValue (melFreq s j)) →
      ¬ freqValue (melFreq s k) →
      exec .seq s = .next (raiseFault ⟨2, BitVec.ofNat 64 (0x10000000 + 16 * k)⟩ s)) ∧
    (∀ k, seqScalars s → (∀ j, j < s.phraseLen.toNat → freqValue (melFreq s j)) → k < s.phraseLen.toNat →
      (∀ j, j < k → freqValue (bassFreq s j)) → ¬ freqValue (bassFreq s k) →
      exec .seq s = .next (raiseFault ⟨2, BitVec.ofNat 64 (0x20000000 + 16 * k)⟩ s)) ∧
    (seqScalars s → seqNotes s →
      (s.build.caps.maxSamples < total →
        exec .seq s = .next (raiseFault ⟨4, BitVec.ofNat 64 (3 * 2 ^ 56 + min (total) (2 ^ 56 - 1))⟩ s)) ∧
      (total ≤ s.build.caps.maxSamples → s.build.caps.maxOnsets < hits 0 →
        exec .seq s = .next (raiseFault ⟨4, BitVec.ofNat 64 (5 * 2 ^ 56 + hits 0)⟩ s)) ∧
      (total ≤ s.build.caps.maxSamples → hits 0 ≤ s.build.caps.maxOnsets →
        s.build.caps.maxOnsets < hits 1 →
        exec .seq s = .next (raiseFault ⟨4, BitVec.ofNat 64 (6 * 2 ^ 56 + hits 1)⟩ s)) ∧
      (total ≤ s.build.caps.maxSamples → hits 0 ≤ s.build.caps.maxOnsets →
        hits 1 ≤ s.build.caps.maxOnsets → s.build.caps.maxOnsets < hits 2 →
        exec .seq s = .next (raiseFault ⟨4, BitVec.ofNat 64 (7 * 2 ^ 56 + hits 2)⟩ s))) ∧
    (seqScalars s → seqNotes s → total = 0 → (∀ b, b < 3 → hits b ≤ s.build.caps.maxOnsets) →
      ∃ t, exec .seq s = .next t ∧ t.done = true ∧ t.fault = s.fault ∧ t.smpLen = 0 ∧
      t.nK = BitVec.ofNat 32 (hits 0) ∧ t.nS = BitVec.ofNat 32 (hits 1) ∧ t.nH = BitVec.ofNat 32 (hits 2) ∧
      (s.build.caps.wf = true →
        onsetList t .onsK (hits 0) = times 0 ∧ onsetList t .onsS (hits 1) = times 1 ∧
        onsetList t .onsH (hits 2) = times 2))

/-- R192, R193, R201 (a): two states that agree on the scalar operands, the FREQ words below PHRASE_LEN and the DRUM
entries below DRUM_LEN end SEQ alike: the same fault record, or the same counts, samples, onset lists and RNG. RNG,
BEATS and everything else do not matter. -/
def Obligations.SeqDependsOnOperandsOnly : Prop :=
  ∀ s u : State, s.build.caps.wf = true → s.build = u.build → s.bpm = u.bpm → s.srate = u.srate →
    s.loops = u.loops → s.phraseLen = u.phraseLen → s.drumLen = u.drumLen →
    (∀ k, k < s.phraseLen.toNat → melFreq s k = melFreq u k ∧ bassFreq s k = bassFreq u k) →
    (∀ j, j < s.drumLen.toNat → drumStep s j = drumStep u j) →
    ∃ t v, exec .seq s = .next t ∧ exec .seq u = .next v ∧ t.done = v.done ∧
      (t.done = false → t.fcode = v.fcode ∧ t.finfo = v.finfo) ∧
      (t.done = true → t.rng = v.rng ∧ t.smpLen = v.smpLen ∧ t.nK = v.nK ∧ t.nS = v.nS ∧ t.nH = v.nH ∧
        (∀ i, i < t.smpLen.toNat → sampleAt t i = sampleAt v i) ∧
        onsetList t .onsK t.nK.toNat = onsetList v .onsK v.nK.toNat ∧
        onsetList t .onsS t.nS.toNat = onsetList v .onsS v.nS.toNat ∧
        onsetList t .onsH t.nH.toNat = onsetList v .onsH v.nH.toNat)

/-- R201 (c): after a successful SEQ a sample is 0 when its step has neither a melody nor a bass note and no recorded
onset has it in its window. -/
def Obligations.SeqSilentWhereNothingSounds : Prop :=
  ∀ s t : State, s.build.caps.wf = true → exec .seq s = .next t → t.done = true →
    ∀ (i k : Nat) (time : F64), i < t.smpLen.toNat → time = sampleTime s i → k = stepIndex s time →
      melFreq s k = 0 → bassFreq s k = 0 →
      (∀ o ∈ onsetList t .onsK t.nK.toNat, inWindow 0x3FC999999999999A#64 (fSub time o) = false) →
      (∀ o ∈ onsetList t .onsS t.nS.toNat, inWindow 0x3FC5C28F5C28F5C3#64 (fSub time o) = false) →
      (∀ o ∈ onsetList t .onsH t.nH.toNat, inWindow 0x3FB1EB851EB851EC#64 (fSub time o) = false) →
      sampleAt t i = 0

/-- R46, R195: after a successful SEQ each onset list is in ascending order of time. -/
def Obligations.OnsetListsAscend : Prop :=
  ∀ (s t : State) (l : List F64), s.build.caps.wf = true → exec .seq s = .next t → t.done = true →
    l = onsetList t .onsK t.nK.toNat ∨ l = onsetList t .onsS t.nS.toNat ∨ l = onsetList t .onsH t.nH.toNat →
    l.Pairwise fun x y => fUnits x ≤ fUnits y

/-- R47, R201 (b): every sample TONE or SEQ produces is in [-32767, 32767]. -/
def Obligations.ProducedSamplesInRange : Prop :=
  ∀ (i : Instr) (s t : State), s.build.caps.wf = true → i = .tone ∨ i = .seq → exec i s = .next t → t.done = true →
    ∀ j, j < t.smpLen.toNat → -32767 ≤ (sampleAt t j).toInt ∧ (sampleAt t j).toInt ≤ 32767

/-! ## PCMW (R220 to R224) -/

/-- R220, R221, R223: PCMW with legal operands ends successfully; OUT holds the 44-byte header, each field an integer
in little-endian bytes, then the two bytes of every sample, low byte first; OUT_LEN is their number; nothing else
changes, no byte outside them. -/
def Obligations.PcmwWritesContainer : Prop :=
  ∀ s : State, s.build.caps.wf = true → pcmwReady s → ∃ t, exec .pcmw s = .next t ∧
    t = { s with mem := t.mem, outLen := t.outLen, running := none, done := true } ∧
    t.outLen.toNat = 44 + 2 * s.smpLen.toNat ∧
    outBytes t 0 4 = [0x52#8, 0x49#8, 0x46#8, 0x46#8] ∧ leValue (outBytes t 4 4) = 36 + 2 * s.smpLen.toNat ∧
    outBytes t 8 4 = [0x57#8, 0x41#8, 0x56#8, 0x45#8] ∧ outBytes t 12 4 = [0x66#8, 0x6D#8, 0x74#8, 0x20#8] ∧
    leValue (outBytes t 16 4) = 16 ∧ leValue (outBytes t 20 2) = 1 ∧ leValue (outBytes t 22 2) = 1 ∧
    leValue (outBytes t 24 4) = s.srate.toNat ∧ leValue (outBytes t 28 4) = 2 * s.srate.toNat ∧
    leValue (outBytes t 32 2) = 2 ∧ leValue (outBytes t 34 2) = 16 ∧
    outBytes t 36 4 = [0x64#8, 0x61#8, 0x74#8, 0x61#8] ∧ leValue (outBytes t 40 4) = 2 * s.smpLen.toNat ∧
    (∀ i, i < s.smpLen.toNat → outByte t (44 + 2 * i) = (sampleAt s i).extractLsb' 0 8 ∧
      outByte t (45 + 2 * i) = (sampleAt s i).extractLsb' 8 8) ∧
    ∀ a, ¬ storedIn .out (44 + 2 * s.smpLen.toNat) a → readByte t a = readByte s a

/-- R222: the first check of PCMW that fails decides its fault, which changes nothing else; SMP_LEN = 0 is legal and
gives the header alone, its size fields 36 and 0. -/
def Obligations.PcmwRejectsFirstBadOperand : Prop :=
  ∀ s : State,
    (¬ rateValue s.srate → exec .pcmw s = .next (raiseFault ⟨2, 0x058#64⟩ s)) ∧
    (rateValue s.srate → s.build.caps.maxSamples < s.smpLen.toNat →
      exec .pcmw s = .next (raiseFault ⟨4, BitVec.ofNat 64 (3 * 2 ^ 56 + s.smpLen.toNat)⟩ s)) ∧
    (rateValue s.srate → s.smpLen.toNat ≤ s.build.caps.maxSamples →
      s.build.caps.maxOut < 44 + 2 * s.smpLen.toNat →
      exec .pcmw s = .next (raiseFault ⟨4, BitVec.ofNat 64 (8 * 2 ^ 56 + (44 + 2 * s.smpLen.toNat))⟩ s)) ∧
    (s.build.caps.wf = true → rateValue s.srate → s.smpLen = 0 → ∃ t, exec .pcmw s = .next t ∧ t.done = true ∧
      t.fault = s.fault ∧ t.outLen = 44 ∧ leValue (outBytes t 4 4) = 36 ∧ leValue (outBytes t 40 4) = 0)

/-! ## PNGE (R230 to R240) -/

/-- R134, R230, R232 to R235, R240 (a), (b), (d): PNGE with legal operands ends successfully; OUT holds the signature, the
IHDR chunk with width, height and the five fixed bytes, one IDAT chunk with the compressed rows, the 12 bytes of IEND,
the CRC-32 of type and payload, spelled out, behind each; OUT_LEN is 57 more than the compressed length; nothing else changes, no byte outside OUT's. -/
def Obligations.PngeWritesContainer : Prop :=
  ∀ (s : State) (z ihdr : List Byte) (crc : List Byte → BitVec 32), s.build.caps.wf = true → pngeReady s →
    crc = (fun bytes =>
      bytes.foldl
        (fun c b => (List.range 8).foldl
          (fun c _ => if c.getLsbD 0 then (c >>> 1) ^^^ 0xEDB88320#32 else c >>> 1) (c ^^^ b.setWidth 32))
        0xFFFFFFFF#32 ^^^ 0xFFFFFFFF#32) →
    z = compressOf s.build.compress (pngRaw s) →
    ihdr = [0x49#8, 0x48#8, 0x44#8, 0x52#8] ++ u32be s.pixW.toNat ++ u32be s.pixH.toNat ++
      [0x08#8, 0x06#8, 0x00#8, 0x00#8, 0x00#8] →
    ∃ t, exec .pnge s = .next t ∧
      t = { s with mem := t.mem, outLen := t.outLen, running := none, done := true } ∧
      t.outLen.toNat = 57 + z.length ∧
      outBytes t 0 (57 + z.length) =
        [0x89#8, 0x50#8, 0x4E#8, 0x47#8, 0x0D#8, 0x0A#8, 0x1A#8, 0x0A#8] ++
        [0x00#8, 0x00#8, 0x00#8, 0x0D#8] ++ ihdr ++ u32be (crc ihdr).toNat ++
        u32be z.length ++ ([0x49#8, 0x44#8, 0x41#8, 0x54#8] ++ z) ++
        u32be (crc ([0x49#8, 0x44#8, 0x41#8, 0x54#8] ++ z)).toNat ++
        [0x00#8, 0x00#8, 0x00#8, 0x00#8, 0x49#8, 0x45#8, 0x4E#8, 0x44#8, 0xAE#8, 0x42#8, 0x60#8, 0x82#8] ∧
      ∀ a, ¬ storedIn .out (57 + z.length) a → readByte t a = readByte s a

/-- R231: the first check of PNGE that fails decides its fault, the INVARIANT before all others, and it changes
nothing else; past the first three checks width and height are below 2^30. -/
def Obligations.PngeRejectsFirstBadOperand : Prop :=
  ∀ s : State,
    (s.pixLen.toNat ≠ s.pixW.toNat * s.pixH.toNat * 4 →
      exec .pnge s = .next (raiseFault ⟨3, s.pixLen.setWidth 64⟩ s)) ∧
    (s.pixLen.toNat = s.pixW.toNat * s.pixH.toNat * 4 → s.pixW = 0 →
      exec .pnge s = .next (raiseFault ⟨2, 0x078#64⟩ s)) ∧
    (s.pixLen.toNat = s.pixW.toNat * s.pixH.toNat * 4 → s.pixW ≠ 0 → s.pixH = 0 →
      exec .pnge s = .next (raiseFault ⟨2, 0x080#64⟩ s)) ∧
    (pngeShape s → s.build.caps.maxPix < s.pixLen.toNat →
      exec .pnge s = .next (raiseFault ⟨4, BitVec.ofNat 64 (4 * 2 ^ 56 + s.pixLen.toNat)⟩ s)) ∧
    (∀ n, pngeShape s → s.pixLen.toNat ≤ s.build.caps.maxPix →
      n = 57 + (compressOf s.build.compress (pngRaw s)).length → s.build.caps.maxOut < n →
      exec .pnge s = .next (raiseFault ⟨4, BitVec.ofNat 64 (8 * 2 ^ 56 + min n (2 ^ 56 - 1))⟩ s)) ∧
    (pngeShape s → s.pixW.toNat < 2 ^ 30 ∧ s.pixH.toNat < 2 ^ 30)

/-- R257: the fault INVARIANT comes from PNGE alone, and only when PIX_LEN is not W·H·4, with PIX_LEN in FINFO. -/
def Obligations.InvariantOnlyFromPnge : Prop :=
  ∀ (i : Instr) (s t : State), exec i s = .next t → t.done = false → t.fcode = 3 →
    i = .pnge ∧ s.pixLen.toNat ≠ s.pixW.toNat * s.pixH.toNat * 4 ∧ t.finfo = s.pixLen.setWidth 64

/-- R240 (b), (c): after a successful PNGE the width and height stand in OUT, and the bytes of the data chunk inflate
to rows that hold every pixel byte unchanged behind one filter byte 0, for every lawful compressor. The inflater is
the model's choice (log 7, PRESUMED): `inflateZlib` stands for the standard inflater that R236 does not define. -/
def Obligations.PngePixelsRecoverable : Prop :=
  ∀ s t : State, s.build.caps.wf = true → exec .pnge s = .next t → t.done = true →
    beValue (outBytes t 16 4) = s.pixW.toNat ∧ beValue (outBytes t 20 4) = s.pixH.toNat ∧
    t.outLen.toNat = 57 + beValue (outBytes t 33 4) ∧
    ∃ raw, inflateZlib (outBytes t 41 (beValue (outBytes t 33 4))) = some raw ∧
      raw.length = s.pixH.toNat * (1 + 4 * s.pixW.toNat) ∧
      ∀ y b, y < s.pixH.toNat → b < 4 * s.pixW.toNat →
        raw[y * (1 + 4 * s.pixW.toNat)]? = some 0x00#8 ∧
        raw[y * (1 + 4 * s.pixW.toNat) + 1 + b]? = some (pixByte s (y * 4 * s.pixW.toNat + b))

/-- R236 (Z2, Z3), R237: whatever compressor is built in, its output is a zlib stream of its input, at least 6 bytes
long; that of COMPRESS_REF has the length R237 gives. The inflater is the model's choice (log 7, PRESUMED). -/
def Obligations.CompressedStreamInflates : Prop :=
  ∀ (i : Impl) (bytes : List Byte), inflateZlib (compressOf i bytes) = some bytes ∧
    6 ≤ (compressOf i bytes).length ∧
    (compressOf .reference bytes).length = 6 + bytes.length + 5 * max 1 ((bytes.length + 65534) / 65535)

/-- R224 (c), R240 (f): PCMW is a function of SRATE, SMP_LEN and the samples below SMP_LEN, PNGE of PIX_W, PIX_H,
PIX_LEN and the bytes below PIX_LEN: two states that agree on them end alike. -/
def Obligations.ContainersDependOnOperandsOnly : Prop :=
  ∀ (i : Instr) (s u : State), s.build.caps.wf = true → s.build = u.build →
    (i = .pcmw ∧ s.srate = u.srate ∧ s.smpLen = u.smpLen ∧
        ∀ j, j < s.smpLen.toNat → sampleAt s j = sampleAt u j) ∨
      (i = .pnge ∧ s.pixW = u.pixW ∧ s.pixH = u.pixH ∧ s.pixLen = u.pixLen ∧
        ∀ b, b < s.pixLen.toNat → pixByte s b = pixByte u b) →
    ∃ t v, exec i s = .next t ∧ exec i u = .next v ∧ t.done = v.done ∧
      (t.done = false → t.fcode = v.fcode ∧ t.finfo = v.finfo) ∧
      (t.done = true → t.outLen = v.outLen ∧ outBytes t 0 t.outLen.toNat = outBytes v 0 v.outLen.toNat)

/-! ## Invariants and frames -/

/-- R20, R53: the state after reset is legal. -/
def Obligations.ResetIsLegal : Prop := legal State.reset = true

/-- R23, R24, R36, R37, R39, R79, R254: every step from a legal state leads to a legal state: the tables keep their
canonical form and hold no byte outside an existing element, at most one of BUSY, DONE and FAULT is set, FCODE and
FINFO are 0 without a fault, the counts stay within the tables. -/
def Obligations.StepKeepsLegal : Prop :=
  ∀ s t : State, legal s = true → step s = .next t → legal t = true

/-- R21, R52, R290: the write sets of the commands. Whatever a command does, the operand registers and the tables MEL,
BASS, DRUM and PIX stay; RESULT, RNG, SMP and SMP_LEN, OUT and OUT_LEN, the onset lists and counts change only by the
commands R52 names for them. -/
def Obligations.CommandsWriteOnlyTheirResults : Prop :=
  ∀ (i : Instr) (s t : State), s.build.caps.wf = true → exec i s = .next t →
    sameOperands s t ∧
    (i ∉ [Instr.env, .kick, .snare, .hat] → t.result = s.result) ∧
    (i ∉ [Instr.snare, .hat, .seq, .seed] → t.rng = s.rng) ∧
    (i ∉ [Instr.tone, .seq] → t.smpLen = s.smpLen) ∧
    (i ∉ [Instr.pcmw, .pnge] → t.outLen = s.outLen) ∧
    (i ≠ .seq → t.nK = s.nK ∧ t.nS = s.nS ∧ t.nH = s.nH) ∧
    ∀ a, readByte t a = readByte s a ∨
      (i ∈ [Instr.tone, .seq] ∧ a / 2 ^ 28 = 5) ∨ (i ∈ [Instr.pcmw, .pnge] ∧ a / 2 ^ 28 = 6) ∨
      (i = .seq ∧ 7 ≤ a / 2 ^ 28 ∧ a / 2 ^ 28 ≤ 9)

/-- R5, R6, R13 (log 3): no step changes the parameters of the block, and one step uses up at most one move of the
host. -/
def Obligations.StepKeepsParameters : Prop :=
  ∀ s t : State, step s = .next t → t.build = s.build ∧ (t.inputs = s.inputs ∨ ∃ i, s.inputs = i :: t.inputs)

/-! ## Numerics (R120 to R132) -/

/-- R120, U16: the four operations round the exact result to the nearest binary64 number, ties to even. The result is
finite exactly when the exact one is nearer to zero than `top` = (2^54 - 1) · 2^2044 units, half a step above the
largest finite number; its sign is that of the exact result, also where it rounds to zero. An exact zero sum is -0.0
only if both addends are negative zeros; a product or quotient is negative when the signs differ. -/
def Obligations.ArithmeticRoundsToNearest : Prop :=
  ∀ (x y : F64) (sum diff prod num : Int) (top : Nat), fIsFinite x = true → fIsFinite y = true →
    sum = fUnits x + fUnits y → diff = fUnits x - fUnits y → prod = fUnits x * fUnits y →
    num = fUnits x * oneUnits * (fUnits y).sign → top = (2 ^ 54 - 1) * 2 ^ 2044 →
    (fIsFinite (fAdd x y) = true ↔ sum.natAbs < top) ∧ (sum.natAbs < top → roundsTo sum 1 (fAdd x y)) ∧
    fSign (fAdd x y) = (if sum = 0 then fSign x && fSign y else decide (sum < 0)) ∧
    (fIsFinite (fSub x y) = true ↔ diff.natAbs < top) ∧ (diff.natAbs < top → roundsTo diff 1 (fSub x y)) ∧
    fSign (fSub x y) = (if diff = 0 then fSign x && !fSign y else decide (diff < 0)) ∧
    (fIsFinite (fMul x y) = true ↔ prod.natAbs < top * oneUnits) ∧
    (prod.natAbs < top * oneUnits → roundsTo prod oneUnits (fMul x y)) ∧
    fSign (fMul x y) = (fSign x != fSign y) ∧
    (fUnits y ≠ 0 →
      (fIsFinite (fDiv x y) = true ↔ num.natAbs < top * (fUnits y).natAbs) ∧
      (num.natAbs < top * (fUnits y).natAbs → roundsTo num (fUnits y).natAbs (fDiv x y)) ∧
      fSign (fDiv x y) = (fSign x != fSign y))

/-- R124, R128: clamp and sign, by value. -/
def Obligations.ClampAndSignByValue : Prop :=
  (∀ x lo hi : F64, fIsFinite x = true → fIsFinite lo = true → fIsFinite hi = true → fUnits lo ≤ fUnits hi →
    fClamp x lo hi = (if fUnits x < fUnits lo then lo else if fUnits hi < fUnits x then hi else x) ∧
    fUnits lo ≤ fUnits (fClamp x lo hi) ∧ fUnits (fClamp x lo hi) ≤ fUnits hi) ∧
  ∀ v : F64, fIsFinite v = true →
    (0 < fUnits v → fSignum v = 0x3FF0000000000000#64) ∧ (fUnits v < 0 → fSignum v = 0xBFF0000000000000#64) ∧
    (fUnits v = 0 → fSignum v = 0x0000000000000000#64)

/-- R125: quant clamps to [-1, 1], multiplies by 32767.0 and truncates toward zero; the result is in [-32767, 32767];
the corner cases of the rule. -/
def Obligations.QuantTruncatesTowardZero : Prop :=
  (∀ x c y : F64, fIsFinite x = true → c = fClamp x 0xBFF0000000000000#64 0x3FF0000000000000#64 →
    y = fMul c 0x40DFFFC000000000#64 →
    (0 ≤ fUnits y → (quant x).toInt * oneUnits ≤ fUnits y ∧ fUnits y < ((quant x).toInt + 1) * oneUnits) ∧
    (fUnits y < 0 → ((quant x).toInt - 1) * oneUnits < fUnits y ∧ fUnits y ≤ (quant x).toInt * oneUnits) ∧
    -32767 ≤ (quant x).toInt ∧ (quant x).toInt ≤ 32767) ∧
  (quant 0x3FF0000000000000#64).toInt = 32767 ∧ (quant 0xBFF0000000000000#64).toInt = -32767 ∧
  (quant 0x401C000000000000#64).toInt = 32767 ∧ (quant 0x8000000000000000#64).toInt = 0 ∧
  (quant 0x3FEFFFEB074A771D#64).toInt = 32766 ∧ (quant 0xBEF4F8B588E368F1#64).toInt = 0

/-- R126, R132: rne_int is the nearest integer, the even one of two; an integer up to 2^53 converts exactly. -/
def Obligations.IntegersRoundAndConvert : Prop :=
  (∀ x : F64, fIsFinite x = true → 0 ≤ fUnits x →
    2 * ((rneInt x : Int) * oneUnits - fUnits x).natAbs ≤ oneUnits ∧
    (2 * ((rneInt x : Int) * oneUnits - fUnits x).natAbs = oneUnits → rneInt x % 2 = 0)) ∧
  ∀ n : Nat, n ≤ 2 ^ 53 → fIsFinite (ofNatF n) = true ∧ fUnits (ofNatF n) = n * oneUnits

/-- R131: floor_int is the floor; fmod is the exact remainder of the exact quotient, so 0 ≤ fmod(t, d) < d. -/
def Obligations.FloorAndFmodExact : Prop :=
  (∀ q : F64, fIsFinite q = true → 0 ≤ fUnits q →
    (floorInt q * oneUnits : Int) ≤ fUnits q ∧ fUnits q < ((floorInt q + 1) * oneUnits : Int)) ∧
  ∀ t d : F64, fIsFinite t = true → fIsFinite d = true → 0 ≤ fUnits t → 0 < fUnits d →
    fIsFinite (fMod t d) = true ∧ fUnits (fMod t d) = fUnits t - fUnits d * (fUnits t / fUnits d) ∧
    0 ≤ fUnits (fMod t d) ∧ fUnits (fMod t d) < fUnits d

/-- R127 (L1, L2), R129 (N2): the laws of SIN and NOISE, for every implementation. -/
def Obligations.SineAndNoiseLaws : Prop :=
  ∀ (i : Impl) (x : F64) (r : NoiseState), fIsFinite x = true →
    unitValue (sinOf i x) ∧ (fUnits x = 0 → sinOf i x = x) ∧ unitValue (noiseOf i r).2

/-- R130: NOISE_REF maps a non-zero 32-bit state to a non-zero 32-bit state `x3`, with the value x3 / 2^31 - 1 exact. -/
def Obligations.NoiseReferenceStep : Prop :=
  ∀ (r : NoiseState) (x1 x2 x3 : BitVec 32), 0 < r → r < 2 ^ 32 →
    x1 = BitVec.ofNat 32 r ^^^ (BitVec.ofNat 32 r <<< 13) → x2 = x1 ^^^ (x1 >>> 17) → x3 = x2 ^^^ (x2 <<< 5) →
    (noiseOf .reference r).1 = x3.toNat ∧ x3 ≠ 0 ∧
    fUnits (noiseOf .reference r).2 * 2 ^ 31 = ((x3.toNat : Int) - 2 ^ 31) * oneUnits
end

