-- ==== Sys2Proof/Laws/State.lean ====
section
/-! SUPPORT. What the shared updates of the state leave in each field: one lemma per field per update, so that no
later proof unfolds a record update. -/

namespace Sys2Proof.Machine

/-! Acceptance (R251) -/

@[simp] theorem accept_running (d : Word) (s : State) : (accept d s).running = some d := rfl
@[simp] theorem accept_done (d : Word) (s : State) : (accept d s).done = false := rfl
@[simp] theorem accept_fault (d : Word) (s : State) : (accept d s).fault = s.fault := rfl
@[simp] theorem accept_fcode (d : Word) (s : State) : (accept d s).fcode = s.fcode := rfl
@[simp] theorem accept_finfo (d : Word) (s : State) : (accept d s).finfo = s.finfo := rfl
@[simp] theorem accept_result (d : Word) (s : State) : (accept d s).result = s.result := rfl
@[simp] theorem accept_tIn (d : Word) (s : State) : (accept d s).tIn = s.tIn := rfl
@[simp] theorem accept_envA (d : Word) (s : State) : (accept d s).envA = s.envA := rfl
@[simp] theorem accept_envD (d : Word) (s : State) : (accept d s).envD = s.envD := rfl
@[simp] theorem accept_envS (d : Word) (s : State) : (accept d s).envS = s.envS := rfl
@[simp] theorem accept_envR (d : Word) (s : State) : (accept d s).envR = s.envR := rfl
@[simp] theorem accept_envT (d : Word) (s : State) : (accept d s).envT = s.envT := rfl
@[simp] theorem accept_bpm (d : Word) (s : State) : (accept d s).bpm = s.bpm := rfl
@[simp] theorem accept_srate (d : Word) (s : State) : (accept d s).srate = s.srate := rfl
@[simp] theorem accept_loops (d : Word) (s : State) : (accept d s).loops = s.loops := rfl
@[simp] theorem accept_phraseLen (d : Word) (s : State) : (accept d s).phraseLen = s.phraseLen := rfl
@[simp] theorem accept_drumLen (d : Word) (s : State) : (accept d s).drumLen = s.drumLen := rfl
@[simp] theorem accept_pixW (d : Word) (s : State) : (accept d s).pixW = s.pixW := rfl
@[simp] theorem accept_pixH (d : Word) (s : State) : (accept d s).pixH = s.pixH := rfl
@[simp] theorem accept_pixLen (d : Word) (s : State) : (accept d s).pixLen = s.pixLen := rfl
@[simp] theorem accept_smpLen (d : Word) (s : State) : (accept d s).smpLen = s.smpLen := rfl
@[simp] theorem accept_outLen (d : Word) (s : State) : (accept d s).outLen = s.outLen := rfl
@[simp] theorem accept_nK (d : Word) (s : State) : (accept d s).nK = s.nK := rfl
@[simp] theorem accept_nS (d : Word) (s : State) : (accept d s).nS = s.nS := rfl
@[simp] theorem accept_nH (d : Word) (s : State) : (accept d s).nH = s.nH := rfl
@[simp] theorem accept_rng (d : Word) (s : State) : (accept d s).rng = s.rng := rfl
@[simp] theorem accept_mem (d : Word) (s : State) : (accept d s).mem = s.mem := rfl
@[simp] theorem accept_build (d : Word) (s : State) : (accept d s).build = s.build := rfl
@[simp] theorem accept_resets (d : Word) (s : State) : (accept d s).resets = s.resets := rfl
@[simp] theorem accept_inputs (d : Word) (s : State) : (accept d s).inputs = s.inputs := rfl
@[simp] theorem accept_answer (d : Word) (s : State) : (accept d s).answer = s.answer := rfl

/-! Successful end (R252) -/

@[simp] theorem finish_running (s : State) : (finish s).running = none := rfl
@[simp] theorem finish_done (s : State) : (finish s).done = true := rfl
@[simp] theorem finish_fault (s : State) : (finish s).fault = s.fault := rfl
@[simp] theorem finish_fcode (s : State) : (finish s).fcode = s.fcode := rfl
@[simp] theorem finish_finfo (s : State) : (finish s).finfo = s.finfo := rfl
@[simp] theorem finish_result (s : State) : (finish s).result = s.result := rfl
@[simp] theorem finish_tIn (s : State) : (finish s).tIn = s.tIn := rfl
@[simp] theorem finish_envA (s : State) : (finish s).envA = s.envA := rfl
@[simp] theorem finish_envD (s : State) : (finish s).envD = s.envD := rfl
@[simp] theorem finish_envS (s : State) : (finish s).envS = s.envS := rfl
@[simp] theorem finish_envR (s : State) : (finish s).envR = s.envR := rfl
@[simp] theorem finish_envT (s : State) : (finish s).envT = s.envT := rfl
@[simp] theorem finish_bpm (s : State) : (finish s).bpm = s.bpm := rfl
@[simp] theorem finish_srate (s : State) : (finish s).srate = s.srate := rfl
@[simp] theorem finish_loops (s : State) : (finish s).loops = s.loops := rfl
@[simp] theorem finish_phraseLen (s : State) : (finish s).phraseLen = s.phraseLen := rfl
@[simp] theorem finish_drumLen (s : State) : (finish s).drumLen = s.drumLen := rfl
@[simp] theorem finish_pixW (s : State) : (finish s).pixW = s.pixW := rfl
@[simp] theorem finish_pixH (s : State) : (finish s).pixH = s.pixH := rfl
@[simp] theorem finish_pixLen (s : State) : (finish s).pixLen = s.pixLen := rfl
@[simp] theorem finish_smpLen (s : State) : (finish s).smpLen = s.smpLen := rfl
@[simp] theorem finish_outLen (s : State) : (finish s).outLen = s.outLen := rfl
@[simp] theorem finish_nK (s : State) : (finish s).nK = s.nK := rfl
@[simp] theorem finish_nS (s : State) : (finish s).nS = s.nS := rfl
@[simp] theorem finish_nH (s : State) : (finish s).nH = s.nH := rfl
@[simp] theorem finish_rng (s : State) : (finish s).rng = s.rng := rfl
@[simp] theorem finish_mem (s : State) : (finish s).mem = s.mem := rfl
@[simp] theorem finish_build (s : State) : (finish s).build = s.build := rfl
@[simp] theorem finish_resets (s : State) : (finish s).resets = s.resets := rfl
@[simp] theorem finish_inputs (s : State) : (finish s).inputs = s.inputs := rfl
@[simp] theorem finish_answer (s : State) : (finish s).answer = s.answer := rfl

/-! Taking a fault (R253) -/

@[simp] theorem raiseFault_running (f : FaultRecord) (s : State) : (raiseFault f s).running = none := rfl
@[simp] theorem raiseFault_done (f : FaultRecord) (s : State) : (raiseFault f s).done = false := rfl
@[simp] theorem raiseFault_fault (f : FaultRecord) (s : State) : (raiseFault f s).fault = true := rfl
@[simp] theorem raiseFault_fcode (f : FaultRecord) (s : State) : (raiseFault f s).fcode = f.code := rfl
@[simp] theorem raiseFault_finfo (f : FaultRecord) (s : State) : (raiseFault f s).finfo = f.info := rfl
@[simp] theorem raiseFault_result (f : FaultRecord) (s : State) : (raiseFault f s).result = s.result := rfl
@[simp] theorem raiseFault_tIn (f : FaultRecord) (s : State) : (raiseFault f s).tIn = s.tIn := rfl
@[simp] theorem raiseFault_envA (f : FaultRecord) (s : State) : (raiseFault f s).envA = s.envA := rfl
@[simp] theorem raiseFault_envD (f : FaultRecord) (s : State) : (raiseFault f s).envD = s.envD := rfl
@[simp] theorem raiseFault_envS (f : FaultRecord) (s : State) : (raiseFault f s).envS = s.envS := rfl
@[simp] theorem raiseFault_envR (f : FaultRecord) (s : State) : (raiseFault f s).envR = s.envR := rfl
@[simp] theorem raiseFault_envT (f : FaultRecord) (s : State) : (raiseFault f s).envT = s.envT := rfl
@[simp] theorem raiseFault_bpm (f : FaultRecord) (s : State) : (raiseFault f s).bpm = s.bpm := rfl
@[simp] theorem raiseFault_srate (f : FaultRecord) (s : State) : (raiseFault f s).srate = s.srate := rfl
@[simp] theorem raiseFault_loops (f : FaultRecord) (s : State) : (raiseFault f s).loops = s.loops := rfl
@[simp] theorem raiseFault_phraseLen (f : FaultRecord) (s : State) : (raiseFault f s).phraseLen = s.phraseLen := rfl
@[simp] theorem raiseFault_drumLen (f : FaultRecord) (s : State) : (raiseFault f s).drumLen = s.drumLen := rfl
@[simp] theorem raiseFault_pixW (f : FaultRecord) (s : State) : (raiseFault f s).pixW = s.pixW := rfl
@[simp] theorem raiseFault_pixH (f : FaultRecord) (s : State) : (raiseFault f s).pixH = s.pixH := rfl
@[simp] theorem raiseFault_pixLen (f : FaultRecord) (s : State) : (raiseFault f s).pixLen = s.pixLen := rfl
@[simp] theorem raiseFault_smpLen (f : FaultRecord) (s : State) : (raiseFault f s).smpLen = s.smpLen := rfl
@[simp] theorem raiseFault_outLen (f : FaultRecord) (s : State) : (raiseFault f s).outLen = s.outLen := rfl
@[simp] theorem raiseFault_nK (f : FaultRecord) (s : State) : (raiseFault f s).nK = s.nK := rfl
@[simp] theorem raiseFault_nS (f : FaultRecord) (s : State) : (raiseFault f s).nS = s.nS := rfl
@[simp] theorem raiseFault_nH (f : FaultRecord) (s : State) : (raiseFault f s).nH = s.nH := rfl
@[simp] theorem raiseFault_rng (f : FaultRecord) (s : State) : (raiseFault f s).rng = s.rng := rfl
@[simp] theorem raiseFault_mem (f : FaultRecord) (s : State) : (raiseFault f s).mem = s.mem := rfl
@[simp] theorem raiseFault_build (f : FaultRecord) (s : State) : (raiseFault f s).build = s.build := rfl
@[simp] theorem raiseFault_resets (f : FaultRecord) (s : State) : (raiseFault f s).resets = s.resets := rfl
@[simp] theorem raiseFault_inputs (f : FaultRecord) (s : State) : (raiseFault f s).inputs = s.inputs := rfl
@[simp] theorem raiseFault_answer (f : FaultRecord) (s : State) : (raiseFault f s).answer = s.answer := rfl

/-! Return from a fault (R264) -/

@[simp] theorem clearFault_running (s : State) : (clearFault s).running = s.running := rfl
@[simp] theorem clearFault_done (s : State) : (clearFault s).done = s.done := rfl
@[simp] theorem clearFault_fault (s : State) : (clearFault s).fault = false := rfl
@[simp] theorem clearFault_fcode (s : State) : (clearFault s).fcode = 0 := rfl
@[simp] theorem clearFault_finfo (s : State) : (clearFault s).finfo = 0 := rfl
@[simp] theorem clearFault_result (s : State) : (clearFault s).result = s.result := rfl
@[simp] theorem clearFault_tIn (s : State) : (clearFault s).tIn = s.tIn := rfl
@[simp] theorem clearFault_envA (s : State) : (clearFault s).envA = s.envA := rfl
@[simp] theorem clearFault_envD (s : State) : (clearFault s).envD = s.envD := rfl
@[simp] theorem clearFault_envS (s : State) : (clearFault s).envS = s.envS := rfl
@[simp] theorem clearFault_envR (s : State) : (clearFault s).envR = s.envR := rfl
@[simp] theorem clearFault_envT (s : State) : (clearFault s).envT = s.envT := rfl
@[simp] theorem clearFault_bpm (s : State) : (clearFault s).bpm = s.bpm := rfl
@[simp] theorem clearFault_srate (s : State) : (clearFault s).srate = s.srate := rfl
@[simp] theorem clearFault_loops (s : State) : (clearFault s).loops = s.loops := rfl
@[simp] theorem clearFault_phraseLen (s : State) : (clearFault s).phraseLen = s.phraseLen := rfl
@[simp] theorem clearFault_drumLen (s : State) : (clearFault s).drumLen = s.drumLen := rfl
@[simp] theorem clearFault_pixW (s : State) : (clearFault s).pixW = s.pixW := rfl
@[simp] theorem clearFault_pixH (s : State) : (clearFault s).pixH = s.pixH := rfl
@[simp] theorem clearFault_pixLen (s : State) : (clearFault s).pixLen = s.pixLen := rfl
@[simp] theorem clearFault_smpLen (s : State) : (clearFault s).smpLen = s.smpLen := rfl
@[simp] theorem clearFault_outLen (s : State) : (clearFault s).outLen = s.outLen := rfl
@[simp] theorem clearFault_nK (s : State) : (clearFault s).nK = s.nK := rfl
@[simp] theorem clearFault_nS (s : State) : (clearFault s).nS = s.nS := rfl
@[simp] theorem clearFault_nH (s : State) : (clearFault s).nH = s.nH := rfl
@[simp] theorem clearFault_rng (s : State) : (clearFault s).rng = s.rng := rfl
@[simp] theorem clearFault_mem (s : State) : (clearFault s).mem = s.mem := rfl
@[simp] theorem clearFault_build (s : State) : (clearFault s).build = s.build := rfl
@[simp] theorem clearFault_resets (s : State) : (clearFault s).resets = s.resets := rfl
@[simp] theorem clearFault_inputs (s : State) : (clearFault s).inputs = s.inputs := rfl
@[simp] theorem clearFault_answer (s : State) : (clearFault s).answer = s.answer := rfl

/-! Reseeding (R48) -/

@[simp] theorem reseed_running (s : State) : (reseed s).running = s.running := rfl
@[simp] theorem reseed_done (s : State) : (reseed s).done = s.done := rfl
@[simp] theorem reseed_fault (s : State) : (reseed s).fault = s.fault := rfl
@[simp] theorem reseed_fcode (s : State) : (reseed s).fcode = s.fcode := rfl
@[simp] theorem reseed_finfo (s : State) : (reseed s).finfo = s.finfo := rfl
@[simp] theorem reseed_result (s : State) : (reseed s).result = s.result := rfl
@[simp] theorem reseed_tIn (s : State) : (reseed s).tIn = s.tIn := rfl
@[simp] theorem reseed_envA (s : State) : (reseed s).envA = s.envA := rfl
@[simp] theorem reseed_envD (s : State) : (reseed s).envD = s.envD := rfl
@[simp] theorem reseed_envS (s : State) : (reseed s).envS = s.envS := rfl
@[simp] theorem reseed_envR (s : State) : (reseed s).envR = s.envR := rfl
@[simp] theorem reseed_envT (s : State) : (reseed s).envT = s.envT := rfl
@[simp] theorem reseed_bpm (s : State) : (reseed s).bpm = s.bpm := rfl
@[simp] theorem reseed_srate (s : State) : (reseed s).srate = s.srate := rfl
@[simp] theorem reseed_loops (s : State) : (reseed s).loops = s.loops := rfl
@[simp] theorem reseed_phraseLen (s : State) : (reseed s).phraseLen = s.phraseLen := rfl
@[simp] theorem reseed_drumLen (s : State) : (reseed s).drumLen = s.drumLen := rfl
@[simp] theorem reseed_pixW (s : State) : (reseed s).pixW = s.pixW := rfl
@[simp] theorem reseed_pixH (s : State) : (reseed s).pixH = s.pixH := rfl
@[simp] theorem reseed_pixLen (s : State) : (reseed s).pixLen = s.pixLen := rfl
@[simp] theorem reseed_smpLen (s : State) : (reseed s).smpLen = s.smpLen := rfl
@[simp] theorem reseed_outLen (s : State) : (reseed s).outLen = s.outLen := rfl
@[simp] theorem reseed_nK (s : State) : (reseed s).nK = s.nK := rfl
@[simp] theorem reseed_nS (s : State) : (reseed s).nS = s.nS := rfl
@[simp] theorem reseed_nH (s : State) : (reseed s).nH = s.nH := rfl
@[simp] theorem reseed_rng (s : State) : (reseed s).rng = seedOf s.build.noise := rfl
@[simp] theorem reseed_mem (s : State) : (reseed s).mem = s.mem := rfl
@[simp] theorem reseed_build (s : State) : (reseed s).build = s.build := rfl
@[simp] theorem reseed_resets (s : State) : (reseed s).resets = s.resets := rfl
@[simp] theorem reseed_inputs (s : State) : (reseed s).inputs = s.inputs := rfl
@[simp] theorem reseed_answer (s : State) : (reseed s).answer = s.answer := rfl

/-! A draw (R10) -/

@[simp] theorem draw_running (s : State) : ((draw s).1).running = s.running := rfl
@[simp] theorem draw_done (s : State) : ((draw s).1).done = s.done := rfl
@[simp] theorem draw_fault (s : State) : ((draw s).1).fault = s.fault := rfl
@[simp] theorem draw_fcode (s : State) : ((draw s).1).fcode = s.fcode := rfl
@[simp] theorem draw_finfo (s : State) : ((draw s).1).finfo = s.finfo := rfl
@[simp] theorem draw_result (s : State) : ((draw s).1).result = s.result := rfl
@[simp] theorem draw_tIn (s : State) : ((draw s).1).tIn = s.tIn := rfl
@[simp] theorem draw_envA (s : State) : ((draw s).1).envA = s.envA := rfl
@[simp] theorem draw_envD (s : State) : ((draw s).1).envD = s.envD := rfl
@[simp] theorem draw_envS (s : State) : ((draw s).1).envS = s.envS := rfl
@[simp] theorem draw_envR (s : State) : ((draw s).1).envR = s.envR := rfl
@[simp] theorem draw_envT (s : State) : ((draw s).1).envT = s.envT := rfl
@[simp] theorem draw_bpm (s : State) : ((draw s).1).bpm = s.bpm := rfl
@[simp] theorem draw_srate (s : State) : ((draw s).1).srate = s.srate := rfl
@[simp] theorem draw_loops (s : State) : ((draw s).1).loops = s.loops := rfl
@[simp] theorem draw_phraseLen (s : State) : ((draw s).1).phraseLen = s.phraseLen := rfl
@[simp] theorem draw_drumLen (s : State) : ((draw s).1).drumLen = s.drumLen := rfl
@[simp] theorem draw_pixW (s : State) : ((draw s).1).pixW = s.pixW := rfl
@[simp] theorem draw_pixH (s : State) : ((draw s).1).pixH = s.pixH := rfl
@[simp] theorem draw_pixLen (s : State) : ((draw s).1).pixLen = s.pixLen := rfl
@[simp] theorem draw_smpLen (s : State) : ((draw s).1).smpLen = s.smpLen := rfl
@[simp] theorem draw_outLen (s : State) : ((draw s).1).outLen = s.outLen := rfl
@[simp] theorem draw_nK (s : State) : ((draw s).1).nK = s.nK := rfl
@[simp] theorem draw_nS (s : State) : ((draw s).1).nS = s.nS := rfl
@[simp] theorem draw_nH (s : State) : ((draw s).1).nH = s.nH := rfl
@[simp] theorem draw_rng (s : State) : ((draw s).1).rng = (noiseOf s.build.noise s.rng).1 := rfl
@[simp] theorem draw_mem (s : State) : ((draw s).1).mem = s.mem := rfl
@[simp] theorem draw_build (s : State) : ((draw s).1).build = s.build := rfl
@[simp] theorem draw_resets (s : State) : ((draw s).1).resets = s.resets := rfl
@[simp] theorem draw_inputs (s : State) : ((draw s).1).inputs = s.inputs := rfl
@[simp] theorem draw_answer (s : State) : ((draw s).1).answer = s.answer := rfl

/-! Writing a byte of a table -/

@[simp] theorem writeByte_running (a : Nat) (v : Byte) (s : State) : (writeByte a v s).running = s.running := rfl
@[simp] theorem writeByte_done (a : Nat) (v : Byte) (s : State) : (writeByte a v s).done = s.done := rfl
@[simp] theorem writeByte_fault (a : Nat) (v : Byte) (s : State) : (writeByte a v s).fault = s.fault := rfl
@[simp] theorem writeByte_fcode (a : Nat) (v : Byte) (s : State) : (writeByte a v s).fcode = s.fcode := rfl
@[simp] theorem writeByte_finfo (a : Nat) (v : Byte) (s : State) : (writeByte a v s).finfo = s.finfo := rfl
@[simp] theorem writeByte_result (a : Nat) (v : Byte) (s : State) : (writeByte a v s).result = s.result := rfl
@[simp] theorem writeByte_tIn (a : Nat) (v : Byte) (s : State) : (writeByte a v s).tIn = s.tIn := rfl
@[simp] theorem writeByte_envA (a : Nat) (v : Byte) (s : State) : (writeByte a v s).envA = s.envA := rfl
@[simp] theorem writeByte_envD (a : Nat) (v : Byte) (s : State) : (writeByte a v s).envD = s.envD := rfl
@[simp] theorem writeByte_envS (a : Nat) (v : Byte) (s : State) : (writeByte a v s).envS = s.envS := rfl
@[simp] theorem writeByte_envR (a : Nat) (v : Byte) (s : State) : (writeByte a v s).envR = s.envR := rfl
@[simp] theorem writeByte_envT (a : Nat) (v : Byte) (s : State) : (writeByte a v s).envT = s.envT := rfl
@[simp] theorem writeByte_bpm (a : Nat) (v : Byte) (s : State) : (writeByte a v s).bpm = s.bpm := rfl
@[simp] theorem writeByte_srate (a : Nat) (v : Byte) (s : State) : (writeByte a v s).srate = s.srate := rfl
@[simp] theorem writeByte_loops (a : Nat) (v : Byte) (s : State) : (writeByte a v s).loops = s.loops := rfl
@[simp] theorem writeByte_phraseLen (a : Nat) (v : Byte) (s : State) : (writeByte a v s).phraseLen = s.phraseLen := rfl
@[simp] theorem writeByte_drumLen (a : Nat) (v : Byte) (s : State) : (writeByte a v s).drumLen = s.drumLen := rfl
@[simp] theorem writeByte_pixW (a : Nat) (v : Byte) (s : State) : (writeByte a v s).pixW = s.pixW := rfl
@[simp] theorem writeByte_pixH (a : Nat) (v : Byte) (s : State) : (writeByte a v s).pixH = s.pixH := rfl
@[simp] theorem writeByte_pixLen (a : Nat) (v : Byte) (s : State) : (writeByte a v s).pixLen = s.pixLen := rfl
@[simp] theorem writeByte_smpLen (a : Nat) (v : Byte) (s : State) : (writeByte a v s).smpLen = s.smpLen := rfl
@[simp] theorem writeByte_outLen (a : Nat) (v : Byte) (s : State) : (writeByte a v s).outLen = s.outLen := rfl
@[simp] theorem writeByte_nK (a : Nat) (v : Byte) (s : State) : (writeByte a v s).nK = s.nK := rfl
@[simp] theorem writeByte_nS (a : Nat) (v : Byte) (s : State) : (writeByte a v s).nS = s.nS := rfl
@[simp] theorem writeByte_nH (a : Nat) (v : Byte) (s : State) : (writeByte a v s).nH = s.nH := rfl
@[simp] theorem writeByte_rng (a : Nat) (v : Byte) (s : State) : (writeByte a v s).rng = s.rng := rfl
@[simp] theorem writeByte_mem (a : Nat) (v : Byte) (s : State) : (writeByte a v s).mem = memWrite s.mem a v := rfl
@[simp] theorem writeByte_build (a : Nat) (v : Byte) (s : State) : (writeByte a v s).build = s.build := rfl
@[simp] theorem writeByte_resets (a : Nat) (v : Byte) (s : State) : (writeByte a v s).resets = s.resets := rfl
@[simp] theorem writeByte_inputs (a : Nat) (v : Byte) (s : State) : (writeByte a v s).inputs = s.inputs := rfl
@[simp] theorem writeByte_answer (a : Nat) (v : Byte) (s : State) : (writeByte a v s).answer = s.answer := rfl

/-! Writing bytes, an element, and elements of a table: only the memory changes -/

theorem storeBytes_eq (a n v : Nat) (s : State) :
    storeBytes a n v s = { s with mem := (storeBytes a n v s).mem } := by
  induction n generalizing a v s with
  | zero => rfl
  | succ n ih => simp only [storeBytes]; rw [ih]; rfl

theorem storeElem_eq (t : Table) (w : Nat) (v : Word) (s : State) :
    storeElem t w v s = { s with mem := (storeElem t w v s).mem } := storeBytes_eq _ _ _ _

theorem storeElems_eq (t : Table) (w : Nat) (vs : List Word) (s : State) :
    storeElems t w vs s = { s with mem := (storeElems t w vs s).mem } := by
  induction vs generalizing w s with
  | nil => rfl
  | cons v vs ih => simp only [storeElems]; rw [ih, storeElem_eq]

@[simp] theorem storeBytes_running (a n v : Nat) (s : State) : (storeBytes a n v s).running = s.running := by rw [storeBytes_eq]
@[simp] theorem storeBytes_done (a n v : Nat) (s : State) : (storeBytes a n v s).done = s.done := by rw [storeBytes_eq]
@[simp] theorem storeBytes_fault (a n v : Nat) (s : State) : (storeBytes a n v s).fault = s.fault := by rw [storeBytes_eq]
@[simp] theorem storeBytes_fcode (a n v : Nat) (s : State) : (storeBytes a n v s).fcode = s.fcode := by rw [storeBytes_eq]
@[simp] theorem storeBytes_finfo (a n v : Nat) (s : State) : (storeBytes a n v s).finfo = s.finfo := by rw [storeBytes_eq]
@[simp] theorem storeBytes_result (a n v : Nat) (s : State) : (storeBytes a n v s).result = s.result := by rw [storeBytes_eq]
@[simp] theorem storeBytes_tIn (a n v : Nat) (s : State) : (storeBytes a n v s).tIn = s.tIn := by rw [storeBytes_eq]
@[simp] theorem storeBytes_envA (a n v : Nat) (s : State) : (storeBytes a n v s).envA = s.envA := by rw [storeBytes_eq]
@[simp] theorem storeBytes_envD (a n v : Nat) (s : State) : (storeBytes a n v s).envD = s.envD := by rw [storeBytes_eq]
@[simp] theorem storeBytes_envS (a n v : Nat) (s : State) : (storeBytes a n v s).envS = s.envS := by rw [storeBytes_eq]
@[simp] theorem storeBytes_envR (a n v : Nat) (s : State) : (storeBytes a n v s).envR = s.envR := by rw [storeBytes_eq]
@[simp] theorem storeBytes_envT (a n v : Nat) (s : State) : (storeBytes a n v s).envT = s.envT := by rw [storeBytes_eq]
@[simp] theorem storeBytes_bpm (a n v : Nat) (s : State) : (storeBytes a n v s).bpm = s.bpm := by rw [storeBytes_eq]
@[simp] theorem storeBytes_srate (a n v : Nat) (s : State) : (storeBytes a n v s).srate = s.srate := by rw [storeBytes_eq]
@[simp] theorem storeBytes_loops (a n v : Nat) (s : State) : (storeBytes a n v s).loops = s.loops := by rw [storeBytes_eq]
@[simp] theorem storeBytes_phraseLen (a n v : Nat) (s : State) : (storeBytes a n v s).phraseLen = s.phraseLen := by rw [storeBytes_eq]
@[simp] theorem storeBytes_drumLen (a n v : Nat) (s : State) : (storeBytes a n v s).drumLen = s.drumLen := by rw [storeBytes_eq]
@[simp] theorem storeBytes_pixW (a n v : Nat) (s : State) : (storeBytes a n v s).pixW = s.pixW := by rw [storeBytes_eq]
@[simp] theorem storeBytes_pixH (a n v : Nat) (s : State) : (storeBytes a n v s).pixH = s.pixH := by rw [storeBytes_eq]
@[simp] theorem storeBytes_pixLen (a n v : Nat) (s : State) : (storeBytes a n v s).pixLen = s.pixLen := by rw [storeBytes_eq]
@[simp] theorem storeBytes_smpLen (a n v : Nat) (s : State) : (storeBytes a n v s).smpLen = s.smpLen := by rw [storeBytes_eq]
@[simp] theorem storeBytes_outLen (a n v : Nat) (s : State) : (storeBytes a n v s).outLen = s.outLen := by rw [storeBytes_eq]
@[simp] theorem storeBytes_nK (a n v : Nat) (s : State) : (storeBytes a n v s).nK = s.nK := by rw [storeBytes_eq]
@[simp] theorem storeBytes_nS (a n v : Nat) (s : State) : (storeBytes a n v s).nS = s.nS := by rw [storeBytes_eq]
@[simp] theorem storeBytes_nH (a n v : Nat) (s : State) : (storeBytes a n v s).nH = s.nH := by rw [storeBytes_eq]
@[simp] theorem storeBytes_rng (a n v : Nat) (s : State) : (storeBytes a n v s).rng = s.rng := by rw [storeBytes_eq]
@[simp] theorem storeBytes_build (a n v : Nat) (s : State) : (storeBytes a n v s).build = s.build := by rw [storeBytes_eq]
@[simp] theorem storeBytes_resets (a n v : Nat) (s : State) : (storeBytes a n v s).resets = s.resets := by rw [storeBytes_eq]
@[simp] theorem storeBytes_inputs (a n v : Nat) (s : State) : (storeBytes a n v s).inputs = s.inputs := by rw [storeBytes_eq]
@[simp] theorem storeBytes_answer (a n v : Nat) (s : State) : (storeBytes a n v s).answer = s.answer := by rw [storeBytes_eq]

@[simp] theorem storeElem_running (t : Table) (w : Nat) (v : Word) (s : State) : (storeElem t w v s).running = s.running := by rw [storeElem_eq]
@[simp] theorem storeElem_done (t : Table) (w : Nat) (v : Word) (s : State) : (storeElem t w v s).done = s.done := by rw [storeElem_eq]
@[simp] theorem storeElem_fault (t : Table) (w : Nat) (v : Word) (s : State) : (storeElem t w v s).fault = s.fault := by rw [storeElem_eq]
@[simp] theorem storeElem_fcode (t : Table) (w : Nat) (v : Word) (s : State) : (storeElem t w v s).fcode = s.fcode := by rw [storeElem_eq]
@[simp] theorem storeElem_finfo (t : Table) (w : Nat) (v : Word) (s : State) : (storeElem t w v s).finfo = s.finfo := by rw [storeElem_eq]
@[simp] theorem storeElem_result (t : Table) (w : Nat) (v : Word) (s : State) : (storeElem t w v s).result = s.result := by rw [storeElem_eq]
@[simp] theorem storeElem_tIn (t : Table) (w : Nat) (v : Word) (s : State) : (storeElem t w v s).tIn = s.tIn := by rw [storeElem_eq]
@[simp] theorem storeElem_envA (t : Table) (w : Nat) (v : Word) (s : State) : (storeElem t w v s).envA = s.envA := by rw [storeElem_eq]
@[simp] theorem storeElem_envD (t : Table) (w : Nat) (v : Word) (s : State) : (storeElem t w v s).envD = s.envD := by rw [storeElem_eq]
@[simp] theorem storeElem_envS (t : Table) (w : Nat) (v : Word) (s : State) : (storeElem t w v s).envS = s.envS := by rw [storeElem_eq]
@[simp] theorem storeElem_envR (t : Table) (w : Nat) (v : Word) (s : State) : (storeElem t w v s).envR = s.envR := by rw [storeElem_eq]
@[simp] theorem storeElem_envT (t : Table) (w : Nat) (v : Word) (s : State) : (storeElem t w v s).envT = s.envT := by rw [storeElem_eq]
@[simp] theorem storeElem_bpm (t : Table) (w : Nat) (v : Word) (s : State) : (storeElem t w v s).bpm = s.bpm := by rw [storeElem_eq]
@[simp] theorem storeElem_srate (t : Table) (w : Nat) (v : Word) (s : State) : (storeElem t w v s).srate = s.srate := by rw [storeElem_eq]
@[simp] theorem storeElem_loops (t : Table) (w : Nat) (v : Word) (s : State) : (storeElem t w v s).loops = s.loops := by rw [storeElem_eq]
@[simp] theorem storeElem_phraseLen (t : Table) (w : Nat) (v : Word) (s : State) : (storeElem t w v s).phraseLen = s.phraseLen := by rw [storeElem_eq]
@[simp] theorem storeElem_drumLen (t : Table) (w : Nat) (v : Word) (s : State) : (storeElem t w v s).drumLen = s.drumLen := by rw [storeElem_eq]
@[simp] theorem storeElem_pixW (t : Table) (w : Nat) (v : Word) (s : State) : (storeElem t w v s).pixW = s.pixW := by rw [storeElem_eq]
@[simp] theorem storeElem_pixH (t : Table) (w : Nat) (v : Word) (s : State) : (storeElem t w v s).pixH = s.pixH := by rw [storeElem_eq]
@[simp] theorem storeElem_pixLen (t : Table) (w : Nat) (v : Word) (s : State) : (storeElem t w v s).pixLen = s.pixLen := by rw [storeElem_eq]
@[simp] theorem storeElem_smpLen (t : Table) (w : Nat) (v : Word) (s : State) : (storeElem t w v s).smpLen = s.smpLen := by rw [storeElem_eq]
@[simp] theorem storeElem_outLen (t : Table) (w : Nat) (v : Word) (s : State) : (storeElem t w v s).outLen = s.outLen := by rw [storeElem_eq]
@[simp] theorem storeElem_nK (t : Table) (w : Nat) (v : Word) (s : State) : (storeElem t w v s).nK = s.nK := by rw [storeElem_eq]
@[simp] theorem storeElem_nS (t : Table) (w : Nat) (v : Word) (s : State) : (storeElem t w v s).nS = s.nS := by rw [storeElem_eq]
@[simp] theorem storeElem_nH (t : Table) (w : Nat) (v : Word) (s : State) : (storeElem t w v s).nH = s.nH := by rw [storeElem_eq]
@[simp] theorem storeElem_rng (t : Table) (w : Nat) (v : Word) (s : State) : (storeElem t w v s).rng = s.rng := by rw [storeElem_eq]
@[simp] theorem storeElem_build (t : Table) (w : Nat) (v : Word) (s : State) : (storeElem t w v s).build = s.build := by rw [storeElem_eq]
@[simp] theorem storeElem_resets (t : Table) (w : Nat) (v : Word) (s : State) : (storeElem t w v s).resets = s.resets := by rw [storeElem_eq]
@[simp] theorem storeElem_inputs (t : Table) (w : Nat) (v : Word) (s : State) : (storeElem t w v s).inputs = s.inputs := by rw [storeElem_eq]
@[simp] theorem storeElem_answer (t : Table) (w : Nat) (v : Word) (s : State) : (storeElem t w v s).answer = s.answer := by rw [storeElem_eq]

@[simp] theorem storeElems_running (t : Table) (w : Nat) (vs : List Word) (s : State) : (storeElems t w vs s).running = s.running := by rw [storeElems_eq]
@[simp] theorem storeElems_done (t : Table) (w : Nat) (vs : List Word) (s : State) : (storeElems t w vs s).done = s.done := by rw [storeElems_eq]
@[simp] theorem storeElems_fault (t : Table) (w : Nat) (vs : List Word) (s : State) : (storeElems t w vs s).fault = s.fault := by rw [storeElems_eq]
@[simp] theorem storeElems_fcode (t : Table) (w : Nat) (vs : List Word) (s : State) : (storeElems t w vs s).fcode = s.fcode := by rw [storeElems_eq]
@[simp] theorem storeElems_finfo (t : Table) (w : Nat) (vs : List Word) (s : State) : (storeElems t w vs s).finfo = s.finfo := by rw [storeElems_eq]
@[simp] theorem storeElems_result (t : Table) (w : Nat) (vs : List Word) (s : State) : (storeElems t w vs s).result = s.result := by rw [storeElems_eq]
@[simp] theorem storeElems_tIn (t : Table) (w : Nat) (vs : List Word) (s : State) : (storeElems t w vs s).tIn = s.tIn := by rw [storeElems_eq]
@[simp] theorem storeElems_envA (t : Table) (w : Nat) (vs : List Word) (s : State) : (storeElems t w vs s).envA = s.envA := by rw [storeElems_eq]
@[simp] theorem storeElems_envD (t : Table) (w : Nat) (vs : List Word) (s : State) : (storeElems t w vs s).envD = s.envD := by rw [storeElems_eq]
@[simp] theorem storeElems_envS (t : Table) (w : Nat) (vs : List Word) (s : State) : (storeElems t w vs s).envS = s.envS := by rw [storeElems_eq]
@[simp] theorem storeElems_envR (t : Table) (w : Nat) (vs : List Word) (s : State) : (storeElems t w vs s).envR = s.envR := by rw [storeElems_eq]
@[simp] theorem storeElems_envT (t : Table) (w : Nat) (vs : List Word) (s : State) : (storeElems t w vs s).envT = s.envT := by rw [storeElems_eq]
@[simp] theorem storeElems_bpm (t : Table) (w : Nat) (vs : List Word) (s : State) : (storeElems t w vs s).bpm = s.bpm := by rw [storeElems_eq]
@[simp] theorem storeElems_srate (t : Table) (w : Nat) (vs : List Word) (s : State) : (storeElems t w vs s).srate = s.srate := by rw [storeElems_eq]
@[simp] theorem storeElems_loops (t : Table) (w : Nat) (vs : List Word) (s : State) : (storeElems t w vs s).loops = s.loops := by rw [storeElems_eq]
@[simp] theorem storeElems_phraseLen (t : Table) (w : Nat) (vs : List Word) (s : State) : (storeElems t w vs s).phraseLen = s.phraseLen := by rw [storeElems_eq]
@[simp] theorem storeElems_drumLen (t : Table) (w : Nat) (vs : List Word) (s : State) : (storeElems t w vs s).drumLen = s.drumLen := by rw [storeElems_eq]
@[simp] theorem storeElems_pixW (t : Table) (w : Nat) (vs : List Word) (s : State) : (storeElems t w vs s).pixW = s.pixW := by rw [storeElems_eq]
@[simp] theorem storeElems_pixH (t : Table) (w : Nat) (vs : List Word) (s : State) : (storeElems t w vs s).pixH = s.pixH := by rw [storeElems_eq]
@[simp] theorem storeElems_pixLen (t : Table) (w : Nat) (vs : List Word) (s : State) : (storeElems t w vs s).pixLen = s.pixLen := by rw [storeElems_eq]
@[simp] theorem storeElems_smpLen (t : Table) (w : Nat) (vs : List Word) (s : State) : (storeElems t w vs s).smpLen = s.smpLen := by rw [storeElems_eq]
@[simp] theorem storeElems_outLen (t : Table) (w : Nat) (vs : List Word) (s : State) : (storeElems t w vs s).outLen = s.outLen := by rw [storeElems_eq]
@[simp] theorem storeElems_nK (t : Table) (w : Nat) (vs : List Word) (s : State) : (storeElems t w vs s).nK = s.nK := by rw [storeElems_eq]
@[simp] theorem storeElems_nS (t : Table) (w : Nat) (vs : List Word) (s : State) : (storeElems t w vs s).nS = s.nS := by rw [storeElems_eq]
@[simp] theorem storeElems_nH (t : Table) (w : Nat) (vs : List Word) (s : State) : (storeElems t w vs s).nH = s.nH := by rw [storeElems_eq]
@[simp] theorem storeElems_rng (t : Table) (w : Nat) (vs : List Word) (s : State) : (storeElems t w vs s).rng = s.rng := by rw [storeElems_eq]
@[simp] theorem storeElems_build (t : Table) (w : Nat) (vs : List Word) (s : State) : (storeElems t w vs s).build = s.build := by rw [storeElems_eq]
@[simp] theorem storeElems_resets (t : Table) (w : Nat) (vs : List Word) (s : State) : (storeElems t w vs s).resets = s.resets := by rw [storeElems_eq]
@[simp] theorem storeElems_inputs (t : Table) (w : Nat) (vs : List Word) (s : State) : (storeElems t w vs s).inputs = s.inputs := by rw [storeElems_eq]
@[simp] theorem storeElems_answer (t : Table) (w : Nat) (vs : List Word) (s : State) : (storeElems t w vs s).answer = s.answer := by rw [storeElems_eq]

end Sys2Proof.Machine
end

