-- ==== Sys2Proof/Laws/Memory.lean ====
section
/-! SUPPORT. The table memory: a read after a write, the frame of a write, the canonical form, and the same for
bytes, elements and runs of elements. -/

namespace Sys2Proof.Machine

/-! One byte. -/

@[simp] theorem memRead_memWrite_same (m : Memory) (x : Nat) (v : Byte) :
    memRead (memWrite m x v) x = some v := by
  induction m with
  | nil => simp [memWrite, memRead]
  | cons c m ih =>
    obtain ⟨a, b⟩ := c
    simp only [memWrite]
    split
    · simp [memRead]
    · split
      · simp [memRead]
      · simp_all [memRead]

theorem memRead_memWrite_other (m : Memory) {x y : Nat} (v : Byte) (h : y ≠ x) :
    memRead (memWrite m x v) y = memRead m y := by
  induction m with
  | nil => simp [memWrite, memRead, h]
  | cons c m ih =>
    obtain ⟨a, b⟩ := c
    simp only [memWrite]
    split
    · simp [memRead, h]
    · split
      · subst_vars; simp [memRead, h]
      · simp only [memRead, ih]

theorem memAbove_memWrite (m : Memory) {x y : Nat} (v : Byte) (h : memAbove y m = true) (hx : y < x) :
    memAbove y (memWrite m x v) = true := by
  induction m with
  | nil => simp [memWrite, memAbove, hx]
  | cons c m ih =>
    obtain ⟨a, b⟩ := c
    simp only [memAbove, List.all_cons, Bool.and_eq_true, decide_eq_true_eq] at h
    have ih := ih h.2
    simp only [memAbove] at ih
    simp only [memWrite]
    split
    · simp only [memAbove, List.all_cons, Bool.and_eq_true, decide_eq_true_eq]; exact ⟨hx, h⟩
    · split
      · simp only [memAbove, List.all_cons, Bool.and_eq_true, decide_eq_true_eq]; exact ⟨hx, h.2⟩
      · simp only [memAbove, List.all_cons, Bool.and_eq_true, decide_eq_true_eq]; exact ⟨h.1, ih⟩

theorem memAbove_mono {m : Memory} {x y : Nat} (h : memAbove y m = true) (hx : x ≤ y) :
    memAbove x m = true := by
  simp only [memAbove, List.all_eq_true, decide_eq_true_eq] at *
  exact fun c hc => Nat.lt_of_le_of_lt hx (h c hc)

/-- A write keeps the canonical form of the memory. -/
theorem memWrite_wf (m : Memory) (x : Nat) (v : Byte) (h : Memory.wf m = true) :
    Memory.wf (memWrite m x v) = true := by
  induction m with
  | nil => simp [memWrite, Memory.wf, memAbove]
  | cons c m ih =>
    obtain ⟨a, b⟩ := c
    simp only [Memory.wf, Bool.and_eq_true] at h
    simp only [memWrite]
    split
    · rename_i hx
      simp only [Memory.wf, Bool.and_eq_true]
      refine ⟨?_, h⟩
      simp only [memAbove, List.all_cons, Bool.and_eq_true, decide_eq_true_eq]
      exact ⟨hx, memAbove_mono h.1 (Nat.le_of_lt hx)⟩
    · split
      · subst_vars; simp only [Memory.wf, Bool.and_eq_true]; exact h
      · simp only [Memory.wf, Bool.and_eq_true]
        exact ⟨memAbove_memWrite m v h.1 (by omega), ih h.2⟩

/-- Every cell of a written memory is the new one or an old one. -/
theorem mem_memWrite {m : Memory} {x : Nat} {v : Byte} {c : Host.Cell} (h : c ∈ memWrite m x v) :
    c = (x, v) ∨ c ∈ m := by
  induction m with
  | nil => simpa [memWrite] using h
  | cons d m ih =>
    obtain ⟨a, b⟩ := d
    simp only [memWrite] at h
    split at h
    · simpa using h
    · split at h
      · simp only [List.mem_cons] at h ⊢; tauto
      · simp only [List.mem_cons] at h ⊢; tauto

theorem reset_mem_wf : Memory.wf State.reset.mem = true := rfl

@[simp] theorem readByte_writeByte_same (s : State) (a : Nat) (v : Byte) :
    readByte (writeByte a v s) a = v := by simp [readByte, writeByte]

theorem readByte_writeByte_other (s : State) {a x : Nat} (v : Byte) (h : x ≠ a) :
    readByte (writeByte a v s) x = readByte s x := by
  simp [readByte, writeByte, memRead_memWrite_other _ v h]

/-- A byte depends on the memory and the number of resets only. -/
theorem readByte_congr {s t : State} (hm : s.mem = t.mem) (hr : s.resets = t.resets) (a : Nat) :
    readByte s a = readByte t a := by simp [readByte, hm, hr]

/-! Several bytes. -/

/-- `storeBytes` changes no byte outside the `n` bytes from `a`. -/
theorem readByte_storeBytes_other (a n v : Nat) (s : State) {x : Nat} (h : x < a ∨ a + n ≤ x) :
    readByte (storeBytes a n v s) x = readByte s x := by
  induction n generalizing a v s with
  | zero => rfl
  | succ n ih =>
    simp only [storeBytes]
    rw [ih _ _ _ (by omega), readByte_writeByte_other _ _ (by omega)]

theorem loadBytes_congr {s t : State} (a n : Nat) (h : ∀ x, a ≤ x → x < a + n → readByte s x = readByte t x) :
    loadBytes s a n = loadBytes t a n := by
  induction n generalizing a with
  | zero => rfl
  | succ n ih =>
    simp only [loadBytes]
    rw [h a (by omega) (by omega), ih (a + 1) (fun x h1 h2 => h x (by omega) (by omega))]

/-- What was stored in `n` bytes is read back. -/
theorem loadBytes_storeBytes (a n v : Nat) (s : State) :
    loadBytes (storeBytes a n v s) a n = v % 256 ^ n := by
  induction n generalizing a v s with
  | zero => simp [loadBytes, Nat.mod_one]
  | succ n ih =>
    simp only [storeBytes, loadBytes]
    rw [ih, readByte_storeBytes_other _ _ _ _ (by omega)]
    rw [readByte_writeByte_same, BitVec.toNat_ofNat, pow_succ' 256 n, Nat.mod_mul]

/-- Storing bytes keeps the canonical form of the memory. -/
theorem storeBytes_wf (a n v : Nat) (s : State) (h : Memory.wf s.mem = true) :
    Memory.wf (storeBytes a n v s).mem = true := by
  induction n generalizing a v s with
  | zero => exact h
  | succ n ih => exact ih _ _ _ (memWrite_wf _ _ _ h)

/-! Elements (R39). -/

theorem tableBits_le (t : Table) : tableBits t ≤ 8 * tableBytes t := by cases t <;> decide

theorem tableBytes_le (t : Table) : tableBytes t ≤ 8 := by cases t <;> decide

theorem tableBits_le_64 (t : Table) : tableBits t ≤ 64 := by cases t <;> decide

/-- The bytes of two different elements do not overlap, for word indices below 2^25. -/
theorem wordAddr_apart {t u : Table} {w x : Nat} (hw : w < 2 ^ 25) (hx : x < 2 ^ 25) (h : t ≠ u ∨ w ≠ x) :
    wordAddr t w + 8 ≤ wordAddr u x ∨ wordAddr u x + 8 ≤ wordAddr t w := by
  cases t <;> cases u <;> simp_all [wordAddr, tableRegion] <;> omega

/-- A host or a command reads back from an element what was written, truncated to the element's width (R39). -/
@[simp] theorem loadElem_storeElem_same (t : Table) (w : Nat) (v : Word) (s : State) :
    loadElem (storeElem t w v s) t w = BitVec.ofNat 64 (v.toNat % 2 ^ tableBits t) := by
  have hd : (2 : Nat) ^ tableBits t ∣ 256 ^ tableBytes t := by
    rw [show (256 : Nat) = 2 ^ 8 from rfl, ← Nat.pow_mul]
    exact Nat.pow_dvd_pow 2 (tableBits_le t)
  simp only [loadElem, storeElem, loadBytes_storeBytes, Nat.mod_mod_of_dvd _ hd, Nat.mod_mod]

/-- Writing an element changes no byte outside its own (R39). -/
theorem readByte_storeElem_other (t : Table) (w : Nat) (v : Word) (s : State) {x : Nat}
    (h : x < wordAddr t w ∨ wordAddr t w + tableBytes t ≤ x) :
    readByte (storeElem t w v s) x = readByte s x := readByte_storeBytes_other _ _ _ _ h

/-- Writing an element leaves every other element as it was. -/
theorem loadElem_storeElem_other {t u : Table} {w x : Nat} (v : Word) (s : State)
    (hw : w < 2 ^ 25) (hx : x < 2 ^ 25) (h : t ≠ u ∨ w ≠ x) :
    loadElem (storeElem t w v s) u x = loadElem s u x := by
  unfold loadElem
  rw [loadBytes_congr]
  intro y h1 h2
  apply readByte_storeElem_other
  have := wordAddr_apart hw hx h
  have := tableBytes_le t
  have := tableBytes_le u
  omega

theorem storeElem_wf (t : Table) (w : Nat) (v : Word) (s : State) (h : Memory.wf s.mem = true) :
    Memory.wf (storeElem t w v s).mem = true := storeBytes_wf _ _ _ _ h

/-! Runs of elements. -/

theorem wordAddr_add (t : Table) (w n : Nat) : wordAddr t (w + n) = wordAddr t w + 8 * n := by
  unfold wordAddr; omega

/-- Writing elements from word `w` on changes no byte outside them. -/
theorem readByte_storeElems_other (t : Table) (w : Nat) (vs : List Word) (s : State) {x : Nat}
    (h : x < wordAddr t w ∨ wordAddr t (w + vs.length) ≤ x) :
    readByte (storeElems t w vs s) x = readByte s x := by
  induction vs generalizing w s with
  | nil => rfl
  | cons v vs ih =>
    have h8 := tableBytes_le t
    have e := wordAddr_add t w
    have e1 := e 1
    have e2 := e (vs.length + 1)
    simp only [List.length_cons] at h
    simp only [storeElems]
    rw [ih (w + 1), readByte_storeElem_other]
    · omega
    · rw [show w + 1 + vs.length = w + (vs.length + 1) by omega]; omega

theorem loadElem_storeElems_before (t : Table) {w x : Nat} (vs : List Word) (s : State) (h : x < w) :
    loadElem (storeElems t w vs s) t x = loadElem s t x := by
  unfold loadElem
  rw [loadBytes_congr]
  intro y h1 h2
  apply readByte_storeElems_other
  have := tableBytes_le t
  simp only [wordAddr] at *
  omega

/-- The elements written are read back, each truncated to the table's width. -/
theorem loadElem_storeElems_same (t : Table) (w : Nat) (vs : List Word) (s : State) {j : Nat}
    (h : j < vs.length) :
    loadElem (storeElems t w vs s) t (w + j) = BitVec.ofNat 64 (vs[j].toNat % 2 ^ tableBits t) := by
  induction vs generalizing w s j with
  | nil => simp at h
  | cons v vs ih =>
    cases j with
    | zero =>
      simp only [storeElems, Nat.add_zero, List.getElem_cons_zero]
      rw [loadElem_storeElems_before _ _ _ (by omega), loadElem_storeElem_same]
    | succ j =>
      simp only [storeElems, List.getElem_cons_succ]
      rw [show w + (j + 1) = w + 1 + j by omega]
      exact ih _ _ (by simpa using h)

/-- Writing elements of one table leaves the elements of every other table as they were. -/
theorem loadElem_storeElems_other {t u : Table} (w : Nat) (vs : List Word) (s : State) {x : Nat}
    (hw : w + vs.length ≤ 2 ^ 25) (hx : x < 2 ^ 25) (h : t ≠ u) :
    loadElem (storeElems t w vs s) u x = loadElem s u x := by
  induction vs generalizing w s with
  | nil => rfl
  | cons v vs ih =>
    simp only [List.length_cons] at hw
    simp only [storeElems]
    rw [ih _ _ (by omega), loadElem_storeElem_other _ _ (by omega) hx (Or.inl h)]

theorem storeElems_wf (t : Table) (w : Nat) (vs : List Word) (s : State) (h : Memory.wf s.mem = true) :
    Memory.wf (storeElems t w vs s).mem = true := by
  induction vs generalizing w s with
  | nil => exact h
  | cons v vs ih => exact ih _ _ (storeElem_wf _ _ _ _ h)

end Sys2Proof.Machine
end

