-- ==== Sys2Proof/Laws/Commands.lean ====
section
/-! SUPPORT. What the shared parts of the commands can do: validation, the two ends of a command, the host's
events, and who moves next. -/

namespace Sys2Proof.Machine

/-! Validation (R255). -/

@[simp] theorem firstFault_nil : firstFault [] = none := rfl

@[simp] theorem firstFault_cons (ok : Bool) (f : FaultRecord) (rest : List (Bool × FaultRecord)) :
    firstFault ((ok, f) :: rest) = if ok then firstFault rest else some f := rfl

/-- No fault exactly when every check passes. -/
theorem firstFault_eq_none {l : List (Bool × FaultRecord)} :
    firstFault l = none ↔ ∀ c ∈ l, c.1 = true := by
  induction l with
  | nil => simp
  | cons c l ih => obtain ⟨ok, f⟩ := c; cases ok <;> simp [ih]

/-- A fault is the record of a check that fails, every check before it passing. -/
theorem firstFault_eq_some {l : List (Bool × FaultRecord)} {f : FaultRecord} :
    firstFault l = some f ↔
      ∃ pre post, l = pre ++ (false, f) :: post ∧ ∀ c ∈ pre, c.1 = true := by
  induction l with
  | nil => simp
  | cons c l ih =>
    obtain ⟨ok, g⟩ := c
    cases ok with
    | false =>
      simp only [firstFault_cons, Bool.false_eq_true, if_false, Option.some.injEq]
      constructor
      · rintro rfl; exact ⟨[], l, rfl, by simp⟩
      · rintro ⟨pre, post, h, hp⟩
        cases pre with
        | nil => simp only [List.nil_append, List.cons.injEq, Prod.mk.injEq] at h; exact h.1.2
        | cons a pre =>
          simp only [List.cons_append, List.cons.injEq] at h
          have := hp a (by simp)
          rw [← h.1] at this; simp at this
    | true =>
      simp only [firstFault_cons, if_true, ih]
      constructor
      · rintro ⟨pre, post, rfl, hp⟩
        exact ⟨(true, g) :: pre, post, rfl, by simpa using hp⟩
      · rintro ⟨pre, post, h, hp⟩
        cases pre with
        | nil => simp at h
        | cons a pre =>
          simp only [List.cons_append, List.cons.injEq] at h
          exact ⟨pre, post, h.2, fun c hc => hp c (by simp [hc])⟩

/-- The checks of two parts in order. -/
theorem firstFault_append (l m : List (Bool × FaultRecord)) :
    firstFault (l ++ m) = (match firstFault l with | some f => some f | none => firstFault m) := by
  induction l with
  | nil => rfl
  | cons c l ih => obtain ⟨ok, f⟩ := c; cases ok <;> simp [ih]

/-! The two ends of a command (R252, R253). -/

@[simp] theorem runCommand_none (e : State → State) (s : State) :
    runCommand none e s = .next (finish (e s)) := rfl

@[simp] theorem runCommand_some (f : FaultRecord) (e : State → State) (s : State) :
    runCommand (some f) e s = .next (raiseFault f s) := rfl

/-- A command ends in its effect or in a fault, and never stops the machine. -/
theorem runCommand_cases (c : Option FaultRecord) (e : State → State) (s : State) :
    (c = none ∧ runCommand c e s = .next (finish (e s))) ∨
      ∃ f, c = some f ∧ runCommand c e s = .next (raiseFault f s) := by
  cases c <;> simp

/-- The validation of each command, as one function of the command. -/
def commandCheck : Instr → State → Option FaultRecord
  | .env => envCheck
  | .tone => toneCheck
  | .kick => hitCheck
  | .snare => hitCheck
  | .hat => hitCheck
  | .seq => seqCheck
  | .pcmw => pcmwCheck
  | .pnge => pngeCheck
  | .seed => fun _ => none

/-- The effect of each command, as one function of the command. -/
def commandEffect : Instr → State → State
  | .env => envEffect
  | .tone => toneEffect
  | .kick => kickEffect
  | .snare => snareEffect
  | .hat => hatEffect
  | .seq => seqEffect
  | .pcmw => pcmwEffect
  | .pnge => pngeEffect
  | .seed => reseed

/-- Every command is its validation followed by its effect (R250). -/
theorem exec_eq (i : Instr) (s : State) : exec i s = runCommand (commandCheck i s) (commandEffect i) s := by
  cases i <;> rfl

/-! Who moves next (U6). -/

theorem nextMove_command {s : State} {d : Word} (h : runsNext s d) : nextMove s = .command d := by
  obtain ⟨h1, h2⟩ := h
  unfold nextMove
  rw [h1]
  cases hi : s.inputs with
  | nil => rfl
  | cons i rest => simp [h2 i rest hi]

theorem nextMove_idle_host {s : State} {i : Input} {rest : List Input} (h : s.running = none)
    (hi : s.inputs = i :: rest) : nextMove s = .host i.event rest := by
  simp [nextMove, h, hi]

theorem nextMove_busy_host {s : State} {i : Input} {rest : List Input} (hb : i.beforeEnd = true)
    (hi : s.inputs = i :: rest) : nextMove s = .host i.event rest := by
  unfold nextMove
  cases s.running <;> simp [hi, hb]

/-- A read event records its answer and changes nothing else (R71). -/
@[simp] theorem hostEvent_read (a : Addr) (s : State) :
    hostEvent (.read a) s = { s with answer := some (busRead s a) } := rfl

/-- A refused write records ERR and changes nothing else (R70, R72). -/
theorem hostEvent_write_refused {a : Addr} {d : Word} {s : State} (h : busWrite a d s = none) :
    hostEvent (.write a d) s = { s with answer := some .err } := by simp [hostEvent, h]

theorem hostEvent_write_ok {a : Addr} {d : Word} {s t : State} (h : busWrite a d s = some t) :
    hostEvent (.write a d) s = { t with answer := some .ok } := by simp [hostEvent, h]

@[simp] theorem hostEvent_reset (s : State) : hostEvent .reset s = resetBlock s := rfl

end Sys2Proof.Machine
end

