-- ==== Sys2Proof/Laws/Float.lean ====
section
/-! SUPPORT. Facts about the binary64 arithmetic: packing, the order of magnitudes, and that rounding is exact on
representable numbers and monotone. -/

namespace Sys2Proof.Machine

/-! Packing. -/

theorem infMag_lt : infMag < 2 ^ 63 := by decide

theorem fMag_lt (x : F64) : fMag x < 2 ^ 63 := Nat.mod_lt _ (by decide)

@[simp] theorem fMag_fPack (neg : Bool) {m : Nat} (h : m < 2 ^ 63) : fMag (fPack neg m) = m := by
  cases neg <;> simp only [fMag, fPack, BitVec.toNat_ofNat, if_true, Bool.false_eq_true, if_false] <;> omega

@[simp] theorem fSign_fPack (neg : Bool) {m : Nat} (h : m < 2 ^ 63) : fSign (fPack neg m) = neg := by
  cases neg <;> simp only [fSign, fPack, BitVec.toNat_ofNat, if_true, Bool.false_eq_true, if_false,
    decide_eq_true_eq, decide_eq_false_iff_not] <;> omega

/-- A pattern is its sign and its bits 62:0. -/
theorem fPack_fSign_fMag (x : F64) : fPack (fSign x) (fMag x) = x := by
  apply BitVec.eq_of_toNat_eq
  have := x.isLt
  by_cases h : 2 ^ 63 ≤ x.toNat
  · simp only [fPack, fSign, fMag, BitVec.toNat_ofNat, h, decide_true, if_true]; omega
  · simp only [fPack, fSign, fMag, BitVec.toNat_ofNat, h, decide_false, Bool.false_eq_true, if_false]; omega

theorem fIsFinite_not_nan {x : F64} (h : fIsFinite x = true) : fIsNaN x = false := by
  simp only [fIsFinite, fIsNaN, decide_eq_true_eq, decide_eq_false_iff_not] at *; omega

theorem fIsFinite_not_inf {x : F64} (h : fIsFinite x = true) : fIsInf x = false := by
  simp only [fIsFinite, fIsInf, decide_eq_true_eq, decide_eq_false_iff_not] at *; omega

/-! The order of magnitudes. -/

theorem magUnits_lt_succ (m : Nat) : magUnits m < magUnits (m + 1) := by
  unfold magUnits
  have hp : ∀ e : Nat, 0 < 2 ^ e := fun e => Nat.two_pow_pos e
  rcases Nat.lt_or_ge ((m + 1) % 2 ^ 52) 1 with h | h
  · have e1 : (m + 1) / 2 ^ 52 = m / 2 ^ 52 + 1 := by omega
    have e2 : m % 2 ^ 52 = 2 ^ 52 - 1 := by omega
    have e3 : (m + 1) % 2 ^ 52 = 0 := by omega
    rw [e1, e2, e3, if_neg (Nat.succ_ne_zero _), Nat.add_sub_cancel]
    split
    · rename_i hm
      rw [hm, Nat.pow_zero]; omega
    · rename_i hm
      obtain ⟨k, hk⟩ := Nat.exists_eq_add_of_lt (Nat.pos_of_ne_zero hm)
      rw [hk, show 0 + k + 1 - 1 = k by omega, show 0 + k + 1 = k + 1 by omega, pow_succ 2 k]
      have := hp k
      generalize 2 ^ k = b at *
      omega
  · have e1 : (m + 1) / 2 ^ 52 = m / 2 ^ 52 := by omega
    have e2 : (m + 1) % 2 ^ 52 = m % 2 ^ 52 + 1 := by omega
    rw [e1, e2]
    split
    · omega
    · exact Nat.mul_lt_mul_of_pos_right (by omega) (hp _)

/-- A larger magnitude pattern is a larger number (R104). -/
theorem magUnits_strictMono : StrictMono magUnits := strictMono_nat_of_lt_succ magUnits_lt_succ

theorem magUnits_le_iff {m n : Nat} : magUnits m ≤ magUnits n ↔ m ≤ n := magUnits_strictMono.le_iff_le

@[simp] theorem magUnits_zero : magUnits 0 = 0 := rfl

/-! Rounding to the nearest integer. -/

theorem rneDiv_bounds (n d : Nat) : n / d ≤ rneDiv n d ∧ rneDiv n d ≤ n / d + 1 := by
  unfold rneDiv; split
  · omega
  · split <;> omega

theorem rneDiv_mul (q d : Nat) (hd : 0 < d) : rneDiv (q * d) d = q := by
  simp [rneDiv, Nat.mul_div_cancel _ hd, hd]

/-- Rounding to the nearest integer keeps the order of quotients. -/
theorem rneDiv_mono {n₁ d₁ n₂ d₂ : Nat} (h₁ : 0 < d₁) (h₂ : 0 < d₂) (h : n₁ * d₂ ≤ n₂ * d₁) :
    rneDiv n₁ d₁ ≤ rneDiv n₂ d₂ := by
  have hq : n₁ / d₁ ≤ n₂ / d₂ := by
    rw [Nat.le_div_iff_mul_le h₂]
    have : n₁ / d₁ * d₂ * d₁ ≤ n₂ * d₁ := by
      calc n₁ / d₁ * d₂ * d₁ = n₁ / d₁ * d₁ * d₂ := by ring
        _ ≤ n₁ * d₂ := Nat.mul_le_mul_right _ (Nat.div_mul_le_self _ _)
        _ ≤ n₂ * d₁ := h
    exact Nat.le_of_mul_le_mul_right this h₁
  have b₁ := rneDiv_bounds n₁ d₁
  have b₂ := rneDiv_bounds n₂ d₂
  rcases Nat.lt_or_ge (n₁ / d₁) (n₂ / d₂) with hlt | hge
  · omega
  · have he : n₁ / d₁ = n₂ / d₂ := by omega
    have hr : n₁ % d₁ * d₂ ≤ n₂ % d₂ * d₁ := by
      have e₁ := Nat.div_add_mod n₁ d₁
      have e₂ := Nat.div_add_mod n₂ d₂
      have : (d₁ * (n₁ / d₁) + n₁ % d₁) * d₂ ≤ (d₂ * (n₂ / d₂) + n₂ % d₂) * d₁ := by rw [e₁, e₂]; exact h
      rw [he] at this
      nlinarith [this]
    unfold rneDiv
    rw [he]
    split
    · split
      · exact Nat.le_refl _
      · split <;> omega
    · rename_i c₁
      have c₂ : ¬ 2 * (n₂ % d₂) < d₂ := by
        intro c
        have a₁ : d₁ ≤ 2 * (n₁ % d₁) := by omega
        have := Nat.mul_le_mul_right d₂ a₁
        have := Nat.mul_lt_mul_of_pos_right c h₁
        nlinarith
      rw [if_neg c₂]
      split
      · rename_i c₃
        have c₄ : d₂ < 2 * (n₂ % d₂) := by
          by_contra c
          have := Nat.mul_lt_mul_of_pos_right c₃ h₂
          have := Nat.mul_le_mul_right d₁ (Nat.le_of_not_lt c)
          nlinarith
        rw [if_pos c₄]
      · split <;> omega

/-! Rounding to binary64. -/

theorem roundMag_le_inf (n d : Nat) : roundMag n d ≤ infMag := Nat.min_le_right _ _

theorem roundMag_lt (n d : Nat) : roundMag n d < 2 ^ 63 := Nat.lt_of_le_of_lt (roundMag_le_inf n d) infMag_lt

/-- The scaled quotient has at most 53 bits. -/
theorem scaled_lt (n d : Nat) : n / (d * 2 ^ roundShift n d) < 2 ^ 53 := by
  rw [← Nat.div_div_eq_div_mul, Nat.div_lt_iff_lt_mul (Nat.two_pow_pos _)]
  unfold roundShift
  have := Nat.lt_log2_self (n := n / d)
  calc n / d < 2 ^ ((n / d).log2 + 1) := this
    _ ≤ 2 ^ (53 + ((n / d).log2 - 52)) := Nat.pow_le_pow_right (by decide) (by omega)
    _ = 2 ^ 53 * 2 ^ ((n / d).log2 - 52) := Nat.pow_add _ _ _

/-- The scaled quotient has 53 bits when the point moved. -/
theorem scaled_ge {n d : Nat} (h : 0 < roundShift n d) : 2 ^ 52 ≤ n / (d * 2 ^ roundShift n d) := by
  rw [← Nat.div_div_eq_div_mul, Nat.le_div_iff_mul_le (Nat.two_pow_pos _)]
  unfold roundShift at *
  have h0 : n / d ≠ 0 := by intro h0; simp [h0] at h
  calc 2 ^ 52 * 2 ^ ((n / d).log2 - 52) = 2 ^ (52 + ((n / d).log2 - 52)) := (Nat.pow_add _ _ _).symm
    _ = 2 ^ (n / d).log2 := by congr 1; omega
    _ ≤ n / d := Nat.log2_self_le h0

/-- Rounding keeps the order (R120). -/
theorem roundMag_mono {n₁ d₁ n₂ d₂ : Nat} (h₁ : 0 < d₁) (h₂ : 0 < d₂) (h : n₁ * d₂ ≤ n₂ * d₁) :
    roundMag n₁ d₁ ≤ roundMag n₂ d₂ := by
  have hq : n₁ / d₁ ≤ n₂ / d₂ := by
    rw [Nat.le_div_iff_mul_le h₂]
    have : n₁ / d₁ * d₂ * d₁ ≤ n₂ * d₁ := by
      calc n₁ / d₁ * d₂ * d₁ = n₁ / d₁ * d₁ * d₂ := by ring
        _ ≤ n₁ * d₂ := Nat.mul_le_mul_right _ (Nat.div_mul_le_self _ _)
        _ ≤ n₂ * d₁ := h
    exact Nat.le_of_mul_le_mul_right this h₁
  have hs : roundShift n₁ d₁ ≤ roundShift n₂ d₂ := by
    unfold roundShift
    have : (n₁ / d₁).log2 ≤ (n₂ / d₂).log2 := by
      rcases Nat.eq_zero_or_pos (n₁ / d₁) with h0 | h0
      · rw [h0]; simp
      · exact (Nat.le_log2 (by omega)).2 (Nat.le_trans (Nat.log2_self_le (by omega)) hq)
    omega
  unfold roundMag
  apply min_le_min_right
  rcases Nat.lt_or_ge (roundShift n₁ d₁) (roundShift n₂ d₂) with hlt | hge
  · have a := (rneDiv_bounds n₁ (d₁ * 2 ^ roundShift n₁ d₁)).2
    have b := (rneDiv_bounds n₂ (d₂ * 2 ^ roundShift n₂ d₂)).1
    have c := scaled_lt n₁ d₁
    have e := scaled_ge (n := n₂) (d := d₂) (by omega)
    omega
  · have he : roundShift n₁ d₁ = roundShift n₂ d₂ := by omega
    rw [he]
    have := rneDiv_mono (n₁ := n₁) (n₂ := n₂) (Nat.mul_pos h₁ (Nat.two_pow_pos (roundShift n₂ d₂)))
      (Nat.mul_pos h₂ (Nat.two_pow_pos (roundShift n₂ d₂)))
      (by rw [← Nat.mul_assoc, ← Nat.mul_assoc]; exact Nat.mul_le_mul_right _ h)
    omega

/-- A representable number rounds to itself (R120). -/
theorem roundMag_exact {m d : Nat} (hm : m ≤ infMag) (hd : 0 < d) : roundMag (magUnits m * d) d = m := by
  have hq : magUnits m * d / d = magUnits m := Nat.mul_div_cancel _ hd
  unfold roundMag
  have key : roundShift (magUnits m * d) d * 2 ^ 52
      + rneDiv (magUnits m * d) (d * 2 ^ roundShift (magUnits m * d) d) = m := by
    unfold roundShift
    rw [hq]
    rcases Nat.eq_zero_or_pos (m / 2 ^ 52) with h0 | h0
    · have e : magUnits m = m := by rw [magUnits, if_pos h0]
      have hm52 : m < 2 ^ 52 := by omega
      have hs : m.log2 - 52 = 0 := by
        rcases Nat.eq_zero_or_pos m with hz | hz
        · simp [hz]
        · have := (Nat.log2_lt (by omega)).2 hm52; omega
      rw [e, hs]
      simp [rneDiv_mul _ _ hd]
    · obtain ⟨k, hk⟩ := Nat.exists_eq_add_of_lt h0
      have e : magUnits m = (m % 2 ^ 52 + 2 ^ 52) * 2 ^ k := by
        unfold magUnits; rw [if_neg (by omega)]; congr 2; omega
      have hl : (magUnits m).log2 = k + 52 := by
        rw [e, Nat.log2_eq_iff (by positivity)]
        have hp := Nat.two_pow_pos k
        constructor
        · rw [Nat.pow_add, Nat.mul_comm]; exact Nat.mul_le_mul_right _ (by omega)
        · rw [show k + 52 + 1 = 53 + k by omega, Nat.pow_add]
          exact Nat.mul_lt_mul_of_pos_right (by omega) hp
      rw [hl, Nat.add_sub_cancel, e,
        show (m % 2 ^ 52 + 2 ^ 52) * 2 ^ k * d = (m % 2 ^ 52 + 2 ^ 52) * (d * 2 ^ k) by ring,
        rneDiv_mul _ _ (Nat.mul_pos hd (Nat.two_pow_pos _))]
      omega
  rw [key]; omega

@[simp] theorem roundMag_zero (d : Nat) : roundMag 0 d = 0 := by
  simp [roundMag, roundShift, rneDiv]

@[simp] theorem fMag_fRound (neg : Bool) (n d : Nat) : fMag (fRound neg n d) = roundMag n d :=
  fMag_fPack _ (roundMag_lt _ _)

@[simp] theorem fSign_fRound (neg : Bool) (n d : Nat) : fSign (fRound neg n d) = neg :=
  fSign_fPack _ (roundMag_lt _ _)

/-- The value of a rounded number. -/
theorem fUnits_fRound (neg : Bool) (n d : Nat) :
    fUnits (fRound neg n d) = if neg then -(magUnits (roundMag n d) : Int) else (magUnits (roundMag n d) : Int) := by
  simp [fUnits]

theorem fRound_not_nan (neg : Bool) (n d : Nat) : fIsNaN (fRound neg n d) = false := by
  have := roundMag_le_inf n d
  simp only [fIsNaN, fMag_fRound, decide_eq_false_iff_not]; omega

end Sys2Proof.Machine
end

