-- ==== Sys2Proof/Laws/Params.lean ====
section
/-! SUPPORT. Small facts about the parameters of a build and the byte serialisations. -/

namespace Sys2Proof.Machine

@[simp] theorem u16le_length (v : Nat) : (u16le v).length = 2 := rfl
@[simp] theorem u32le_length (v : Nat) : (u32le v).length = 4 := rfl
@[simp] theorem u32be_length (v : Nat) : (u32be v).length = 4 := rfl

@[simp] theorem bitsOfByte_length (b : Byte) : (bitsOfByte b).length = 8 := by simp [bitsOfByte]

@[simp] theorem bitsOfBytes_nil : bitsOfBytes [] = [] := rfl

@[simp] theorem bitsOfBytes_cons (b : Byte) (bs : List Byte) :
    bitsOfBytes (b :: bs) = bitsOfByte b ++ bitsOfBytes bs := by simp [bitsOfBytes]

@[simp] theorem bitsOfBytes_append (as bs : List Byte) :
    bitsOfBytes (as ++ bs) = bitsOfBytes as ++ bitsOfBytes bs := by simp [bitsOfBytes]

@[simp] theorem bitsOfBytes_length (bs : List Byte) : (bitsOfBytes bs).length = 8 * bs.length := by
  induction bs with
  | nil => rfl
  | cons b bs ih => simp [ih]; omega

/-- A value in [-1.0, 1.0] is no NaN. -/
theorem inUnit_not_nan {y : F64} (h : inUnit y = true) : fIsNaN y = false := by
  simp only [inUnit, fLe, Bool.and_eq_true, Bool.not_eq_true'] at h
  exact h.1.1.2

/-- A lawful sine has the sign-preserving zeros of L2 and is in [-1.0, 1.0] elsewhere. -/
theorem lawfulSin_cases (f : F64 → F64) (x : F64) :
    (fMag x = 0 ∧ lawfulSin f x = x) ∨
      (fMag x ≠ 0 ∧ inUnit (f x) = true ∧ lawfulSin f x = f x) ∨
      (fMag x ≠ 0 ∧ inUnit (f x) = false ∧ lawfulSin f x = f0) := by
  unfold lawfulSin
  by_cases h : fMag x = 0
  · simp [h]
  · cases hu : inUnit (f x) <;> simp [h]

/-- A lawful stream inflates to its bytes or is that of COMPRESS_REF. -/
theorem lawfulStream_cases (stream bytes : List Byte) :
    (inflateZlib stream = some bytes ∧ lawfulStream stream bytes = stream) ∨
      (inflateZlib stream ≠ some bytes ∧ lawfulStream stream bytes = compressRef bytes) := by
  unfold lawfulStream
  by_cases h : inflateZlib stream = some bytes <;> simp [h]

/-- What the codes of a dynamic block satisfy: few enough symbols, usable codes, an end symbol. -/
theorem takeCodes_ok {nlit ndist nclen : Nat} {bits rest : List Bool} {lit dist : List Nat}
    (h : takeCodes nlit ndist nclen bits = some ((lit, dist), rest)) :
    nlit ≤ 286 ∧ ndist ≤ 30 ∧ blockCodesOk lit dist = true := by
  unfold takeCodes at h
  repeat' split at h
  all_goals simp_all

end Sys2Proof.Machine
end

