-- ==== Sys2Proof/Laws/PerInstr.lean ====
section
/-! SUPPORT. One family of statements per command: the word of a command has the command's fields, every reserved
bit 0, and decodes to it (`30_encoding.md` R100 to R102). -/

namespace Sys2Proof.Laws.EncodedWellFormed

/-- The word of `i` carries exactly the raw fields of `i`, they are well formed, and the decoder gives `i` back. -/
def Statement (i : Instr) : Prop :=
  commandFields (encode i) = i.fields ∧ i.wellFormed = true ∧ decode (encode i) = .ok i

theorem env : Statement .env := by refine ⟨?_, ?_, ?_⟩ <;> decide

theorem tone : Statement .tone := by refine ⟨?_, ?_, ?_⟩ <;> decide

theorem kick : Statement .kick := by refine ⟨?_, ?_, ?_⟩ <;> decide

theorem snare : Statement .snare := by refine ⟨?_, ?_, ?_⟩ <;> decide

theorem hat : Statement .hat := by refine ⟨?_, ?_, ?_⟩ <;> decide

theorem seq : Statement .seq := by refine ⟨?_, ?_, ?_⟩ <;> decide

theorem pcmw : Statement .pcmw := by refine ⟨?_, ?_, ?_⟩ <;> decide

theorem pnge : Statement .pnge := by refine ⟨?_, ?_, ?_⟩ <;> decide

theorem seed : Statement .seed := by refine ⟨?_, ?_, ?_⟩ <;> decide

end Sys2Proof.Laws.EncodedWellFormed
end

