-- ==== Sys2Proof/Tests/Slice0.lean ====
section
/-! SUPPORT. Tests: the checks of WellFormed, the written-out command words, a few vectors of spec/ for each command,
and, for every statement with hypotheses, a state that meets them. Expected values are copied from the rules named. -/

namespace Sys2Proof.Tests

open Sys2Proof Sys2Proof.Machine

set_option Elab.async false

/-! WellFormed: one ill-formed term for each check, which the check refuses (R100, R101). -/

theorem test_rsv0_refused : CommandFields.wellFormed { opc := 0x01, rsv0 := 1, rsv1 := 0 } = false := by decide

theorem test_rsv1_refused : CommandFields.wellFormed { opc := 0x01, rsv0 := 0, rsv1 := 0x80000000 } = false := by
  decide

theorem test_opcode_zero_refused : CommandFields.wellFormed { opc := 0x00, rsv0 := 0, rsv1 := 0 } = false := by decide

theorem test_opcode_ten_refused : CommandFields.wellFormed { opc := 0x0A, rsv0 := 0, rsv1 := 0 } = false := by decide

theorem test_seed_well_formed : CommandFields.wellFormed { opc := 0x09, rsv0 := 0, rsv1 := 0 } = true := by decide

/-! Decode: the words of R102 and the rows of spec/opcode_table.json, written out. -/

theorem test_decode_env : decode 0x0000000000000001#64 = .ok .env := by decide
theorem test_decode_tone : decode 0x0000000000000002#64 = .ok .tone := by decide
theorem test_decode_kick : decode 0x0000000000000003#64 = .ok .kick := by decide
theorem test_decode_snare : decode 0x0000000000000004#64 = .ok .snare := by decide
theorem test_decode_hat : decode 0x0000000000000005#64 = .ok .hat := by decide
theorem test_decode_seq : decode 0x0000000000000006#64 = .ok .seq := by decide
theorem test_decode_pcmw : decode 0x0000000000000007#64 = .ok .pcmw := by decide
theorem test_decode_pnge : decode 0x0000000000000008#64 = .ok .pnge := by decide
theorem test_decode_seed : decode 0x0000000000000009#64 = .ok .seed := by decide
theorem test_decode_zero : decode 0x0000000000000000#64 = .error .unassignedOpcode := by decide
theorem test_decode_above_map : decode 0x000000000000000A#64 = .error .unassignedOpcode := by decide
theorem test_decode_top_bit : decode 0x8000000000000001#64 = .error .reservedBits := by decide
theorem test_decode_bit_8 : decode 0x0000000000000101#64 = .error .reservedBits := by decide
theorem test_encode_seq : encode .seq = 0x0000000000000006#64 := by decide
theorem test_table_word : decodeTableWord 64 0x07 = some .pcmw := by decide

/-! Running one command or one event. -/

/-- The state after a command, if it answers one. -/
def after (i : Instr) (s : State) : Option State :=
  match exec i s with
  | .next t => some t
  | _ => none

/-- The state after one step, if it answers one. -/
def stepped (s : State) : Option State :=
  match step s with
  | .next t => some t
  | _ => none

/-- A state with elements of one table written from index 0 on. -/
def filled (t : Table) (vs : List Word) (s : State) : State := storeElems t 0 vs s

/-- The operands of the example of R150. -/
def envState : State :=
  { State.reset with
    tIn := 0x3FA999999999999A, envA := f0_01, envD := f0_08, envS := f0_65, envR := f0_12, envT := f1 }

/-- A state whose T_IN is `x`. -/
def hitState (x : F64) : State := { State.reset with tIn := x }

/-- R166 (2), one note shortened to a rate of 2: (1.0 Hz, 1.0 beat) at BPM 60.0. -/
def toneState : State :=
  filled .mel [f1, f1] { State.reset with bpm := f60, srate := 2, phraseLen := 1 }

/-- The operands of R203 at a rate of 4 and one loop: one melody note, one rest, two bass notes, two drum steps. -/
def seqState : State :=
  filled .drum [5, 2] <| filled .bass [f1, f1, f1, f1] <| filled .mel [f2, f1, 0, f1]
    { State.reset with bpm := f120, srate := 4, loops := 1, phraseLen := 2, drumLen := 2 }

/-- R225 (3): three samples the host wrote. -/
def pcmwState : State :=
  filled .smp [0x8000, 0x7FFF, 0xFFFF] { State.reset with srate := 44100, smpLen := 3 }

/-- R239 (1): one opaque red pixel. -/
def pngeState : State :=
  filled .pix [0xFF, 0x00, 0x00, 0xFF] { State.reset with pixW := 1, pixH := 1, pixLen := 4 }

/-! ENV (R150, R155). -/

theorem test_env_decay : (after .env envState).map (·.result) = some 0x3FEA666666666666#64 := by decide +kernel

theorem test_env_level_above_one :
    (after .env { envState with envS := 0x3FF0000000000001 }).map (fun t => (t.fcode, t.finfo, t.result))
      = some (2, 0x038, 0) := by decide +kernel

/-! TONE (R160, R161, R166). -/

theorem test_tone_samples :
    (after .tone toneState).map (fun t => (t.smpLen, sampleAt t 0, sampleAt t 1)) = some (2, 0, 1490) := by
  decide +kernel

theorem test_tone_capacity :
    (after .tone { toneState with phraseLen := 2000 }).map (fun t => (t.fcode, t.finfo, t.smpLen))
      = some (4, 0x01000000000007D0, 0) := by decide +kernel

/-! KICK, SNARE, HAT, SEED (R171 to R174). -/

theorem test_kick_swept : (after .kick (hitState 0x3FB0000000000000)).map (·.result) = some 0x3FE48D2BD21CB3C1#64 := by
  decide +kernel

theorem test_kick_negative_time :
    (after .kick (hitState 0xBFF0000000000000)).map (fun t => (t.result, t.done)) = some (0, true) := by decide +kernel

theorem test_snare_draws :
    (after .snare (hitState 0)).map (fun t => (t.result, t.rng)) = some (0xBFE3647BF870A3D7, 0x1443882A) := by
  decide +kernel

theorem test_snare_outside_window :
    (after .snare (hitState f1)).map (fun t => (t.result, t.rng)) = some (0, 1337) := by decide +kernel

theorem test_hat_draws :
    (after .hat (hitState f0_03)).map (fun t => (t.result, t.rng)) = some (0xBFDAEF1DF5800000, 0x1443882A) := by
  decide +kernel

theorem test_hat_bad_time :
    (after .hat (hitState 0x7FF0000000000000)).map (fun t => (t.fcode, t.finfo, t.rng)) = some (2, 0x020, 1337) := by
  decide +kernel

theorem test_seed : (after .seed { State.reset with rng := 5 }).map (·.rng) = some 0x539 := by decide +kernel

/-! SEQ: the first rows of R203 that fall on a rate of 4 (i = 0 and 4 there; the third noise value is drawn second
here, so only the first sample and the onsets are compared). -/

theorem test_seq_first_sample :
    (after .seq seqState).map (fun t => (t.smpLen, (sampleAt t 0).toInt, t.nK, t.nS, t.nH)) = some (2, -3199, 1, 1, 1) := by
  decide +kernel

theorem test_seq_zero_loops :
    (after .seq { seqState with loops := 0 }).map (fun t => (t.fcode, t.finfo, t.rng)) = some (2, 0x060, 1337) := by
  decide +kernel

/-! PCMW (R225) and PNGE (R239). -/

theorem test_pcmw_bytes :
    (after .pcmw pcmwState).map (fun t => (t.outLen, outBytes t 24 8, outBytes t 40 10)) =
      some (50, [0x44, 0xAC, 0x00, 0x00, 0x88, 0x58, 0x01, 0x00],
        [0x06, 0x00, 0x00, 0x00, 0x00, 0x80, 0xFF, 0x7F, 0xFF, 0xFF]) := by decide +kernel

theorem test_pcmw_no_rate :
    (after .pcmw { pcmwState with srate := 0 }).map (fun t => (t.fcode, t.finfo, t.outLen)) = some (2, 0x058, 0) := by
  decide +kernel

theorem test_pnge_bytes :
    (after .pnge pngeState).map (fun t => (t.outLen, outBytes t 29 12, outBytes t 41 16, outBytes t 57 4)) =
      some (73, [0x1F, 0x15, 0xC4, 0x89, 0x00, 0x00, 0x00, 0x10, 0x49, 0x44, 0x41, 0x54],
        [0x78, 0x01, 0x01, 0x05, 0x00, 0xFA, 0xFF, 0x00, 0xFF, 0x00, 0x00, 0xFF, 0x05, 0x00, 0x01, 0xFF],
        [0xFA, 0x5C, 0x88, 0xD1]) := by decide +kernel

theorem test_pnge_invariant :
    (after .pnge { pngeState with pixW := 2 }).map (fun t => (statusWord t, t.finfo, t.outLen)) = some (0x0304, 4, 0) := by
  decide +kernel

/-! The bus and STATUS (R76, R77, R259, R264). -/

/-- Reset, with a CMD write of `d` coming. -/
def cmdWrite (d : Word) : State := { State.reset with inputs := [⟨.write 0#32 d, false⟩] }

theorem test_accept_then_fault :
    ((stepped (cmdWrite 0x0000000100000002)).bind stepped).map (fun t => (statusWord t, t.finfo, t.answer))
      = some (0x0104, 0x0000000100000002, some .ok) := by decide +kernel

theorem test_clear_fault :
    statusWord (hostEvent (.write 0x8#32 4) (raiseFault (badParam 0x20) State.reset)) = 0 := by decide +kernel

theorem test_fetch_word_runs : (stepped (State.reset.withFetchWord 64 9)).map (·.done) = some true := by
  decide +kernel

/-! Numerics: the check values of R127, R134, R238. -/

theorem test_sine_anchors : sinCR 0x3FF0000000000000 = 0x3FEAED548F090CEE#64 ∧ sinCR fTwoPi = 0xBCB1A62633145C07#64 := by
  decide +kernel

theorem test_crc_check_value : crc32 tagIEND = 0xAE426082#32 := by decide +kernel

theorem test_adler_check_value : adler32 [0x00, 0xFF, 0x00, 0x00, 0xFF] = 0x050001FF := by decide +kernel

/-- A stored block of 260 zero bytes, a fixed block with one match of length 3 at distance 257, and the check value,
behind a header. -/
def farMatch (header : List Byte) : List Byte :=
  header ++ [0x00, 0x04, 0x01, 0xFB, 0xFE] ++ List.replicate 260 0x00#8 ++
    [0x03, 0x06, 0x00, 0x00, 0x01, 0x07, 0x00, 0x01]

theorem test_inflate_window :
    inflateZlib (farMatch [0x78, 0x01]) = some (List.replicate 263 0) ∧ inflateZlib (farMatch [0x08, 0x1D]) = none := by
  decide +kernel

/-! ## Witnesses: for every statement with hypotheses, states and operands that meet them all

One theorem for each statement of Certificates/Slice0/Obligations.lean, one conjunct for each clause of its. -/

/-- A command of the state is accepted and waits to run. -/
def accepted (d : Word) : State := accept d State.reset

/-- A state with a fault record. -/
def faultState : State := raiseFault (badParam 0x20) State.reset

/-- Capacities small enough for the size checks to fail. -/
def smallBuild : Build :=
  { Build.reference with caps := ⟨1, 1, 1, 4, 1, 57⟩ }

theorem witness_DecodeInvertsEncode : (∃ d i, decode d = .ok i) ∧ ∃ (d : Word) (i : Instr), d = encode i :=
  ⟨⟨9, .seed, by decide⟩, encode .env, .env, rfl⟩

theorem witness_StepRunsDecodedCommand : runsNext (accepted 1) 1 ∧ decode 1 = .ok .env :=
  ⟨⟨rfl, fun i rest h => nomatch (h : [] = i :: rest)⟩, by decide⟩

theorem witness_HostMoveIsOneStep :
    ((cmdWrite 1).inputs = ⟨.write 0#32 1, false⟩ :: [] ∧ (cmdWrite 1).running = none) ∧
      (({ accepted 1 with inputs := [⟨.reset, true⟩] } : State).inputs = ⟨.reset, true⟩ :: []) := by decide

theorem witness_CommandWordAccepted : State.reset.running = none ∧ State.reset.fault = false := by decide

theorem witness_IllegalWordFaults :
    (cmdWrite 0x100).inputs = ⟨.write 0#32 0x100, false⟩ :: [] ∧ (cmdWrite 0x100).running = none ∧
      (cmdWrite 0x100).fault = false ∧ (0x100 : Word).extractLsb' 8 56 ≠ 0 ∧
      ((0 : Word).extractLsb' 0 8).toNat = 0 ∧ 9 < ((0x0A : Word).extractLsb' 0 8).toNat ∧
      ∀ j more, ([] : List Input) = j :: more → j.beforeEnd = false :=
  ⟨by decide, by decide, by decide, by decide, by decide, by decide, fun j more h => nomatch (h : [] = j :: more)⟩

theorem witness_CommandEndsOneWay : State.reset.fault = false ∧ State.reset.fcode = 0 := by decide

theorem witness_StatusWriteClears : faultState.running = none ∧ faultState.fault = true := by decide

theorem witness_RegisterWriteThenRead :
    State.reset.running = none ∧ regAccess .bpm = .readWrite ∧ regAccess .smpLen = .readWrite := by decide

theorem witness_TableWriteThenRead :
    State.reset.build.caps.wf = true ∧ State.reset.running = none ∧ tableHostWrites .mel = true ∧
      2047 < tableWords State.reset.build.caps .mel ∧ tableHostWrites .drum = true ∧
      1023 < tableWords State.reset.build.caps .drum := by decide

theorem witness_ReadsAnswerTheLocation :
    State.reset.running = none ∧ State.reset.build.caps.wf = true ∧ 2047 < 2 * State.reset.build.caps.maxNotes ∧
      1023 < State.reset.build.caps.maxDrum ∧ 0 < State.reset.build.caps.maxOnsets ∧
      State.reset.build.caps.maxOut - 1 < State.reset.build.caps.maxOut := by decide

theorem witness_AbsentAndReadOnlyRefused :
    (0x00000004#32).toNat % 8 ≠ 0 ∧ 10 ≤ (0xA0000000#32).toNat / 2 ^ 28 ∧
      ((0x000000C0#32).toNat < 2 ^ 28 ∧ 0x0C0 ≤ (0x000000C0#32).toNat) ∧
      (∃ tb, (0x30002000#32).toNat / 2 ^ 28 = tableRegion tb ∧
        tableWords State.reset.build.caps tb ≤ (0x30002000#32).toNat % 2 ^ 28 / 8) ∧
      (0x000000B8#32).toNat ∈ [0x010, 0x018, 0x098, 0x0A0, 0x0A8, 0x0B0, 0x0B8] ∧
      (6 ≤ (0x60000000#32).toNat / 2 ^ 28 ∧ (0x60000000#32).toNat / 2 ^ 28 ≤ 9) ∧ State.reset.running = none :=
  ⟨by decide, by decide, by decide, ⟨.drum, by decide, by decide⟩, by decide, by decide, by decide⟩

theorem witness_BusyRefusesAllButStatusRead : (accepted 1).running.isSome = true ∧ 0x10#32 ≠ 0x8#32 := by decide

theorem witness_FaultRefusesCommandsOnly :
    faultState.running = none ∧ faultState.fault = true ∧ 0x20#32 ≠ 0x0#32 ∧ 0x10#32 ≠ 0x8#32 := by decide

theorem witness_EnvWritesEnvelope : envReady envState := by decide +kernel

/-- The operands of ENV with their bounds and addresses, in the order of R150. -/
def envOperands (s : State) : List (F64 × Nat × Nat) :=
  [(s.tIn, 2 ^ 32, 0x020), (s.envA, 2 ^ 32, 0x028), (s.envD, 2 ^ 32, 0x030), (s.envS, 1, 0x038),
    (s.envR, 2 ^ 32, 0x040), (s.envT, 2 ^ 32, 0x048)]

theorem witness_EnvRejectsFirstBadOperand :
    (∃ s post, envOperands s = [] ++ (fm1, 2 ^ 32, 0x020) :: post ∧ ¬ valueIn 0 (2 ^ 32 * oneUnits : Nat) fm1) ∧
      (∃ s post, envOperands s = (envOperands s).take 3 ++ (f2, 1, 0x038) :: post ∧
        (∀ c ∈ (envOperands s).take 3, valueIn 0 (c.2.1 * oneUnits : Nat) c.1) ∧
        ¬ valueIn 0 (1 * oneUnits : Nat) f2) ∧
      ∃ s, envOperands s = (envOperands s).take 5 ++ (fNaN, 2 ^ 32, 0x048) :: [] ∧
        (∀ c ∈ (envOperands s).take 5, valueIn 0 (c.2.1 * oneUnits : Nat) c.1) ∧
        ¬ valueIn 0 (2 ^ 32 * oneUnits : Nat) fNaN :=
  ⟨⟨hitState fm1, _, rfl, by decide +kernel⟩, ⟨{ envState with envS := f2 }, _, rfl, by decide +kernel⟩,
    { envState with envT := fNaN }, rfl, by decide +kernel⟩

theorem witness_EnvelopeInUnitRange : timeValue f0 ∧ timeValue fTwo32 ∧ levelValue f1 := by decide +kernel

theorem witness_EnvelopeAtSpecialTimes :
    (timeValue f0 ∧ timeValue f0_01 ∧ timeValue f0_72 ∧ timeValue fHalf ∧ timeValue f2 ∧ timeValue f1 ∧
        timeValue f0_08 ∧ timeValue f0_12 ∧ levelValue f0_65) ∧
      (fUnits f0 = 0 ∧ 0 < fUnits f0_01) ∧
      (fUnits f0_01 + fUnits f0_08 ≤ fUnits f1 ∧ 0 < fUnits f1 ∧ fUnits f1 ≤ fUnits f1) ∧
      (fUnits f0_01 + fUnits f0_08 ≤ fUnits fHalf ∧ fUnits fHalf < fUnits (fSub f1 f0_12)) ∧
      (fUnits f0_01 + fUnits f0_08 ≤ fUnits f2 ∧ fUnits f1 < fUnits f2) ∧
      (fUnits f0 = 0 ∧ 0 < fUnits f0_08) ∧ (fUnits f0 = 0 ∧ 0 < fUnits (fSub f1 f0_12)) ∧
      (fUnits f0 + fUnits f0 ≤ fUnits f0_72 ∧ fUnits f0_72 < fUnits f1) ∧
      fUnits f0 + fUnits f0 ≤ fUnits f1 ∧ fUnits f1 ≤ fUnits f1 := by
  refine ⟨?_, ?_, ?_, ?_, ?_, ?_, ?_, ?_, ?_⟩ <;> decide +kernel

theorem witness_EnvelopeReleaseNeverRises :
    timeValue f1 ∧ timeValue f2 ∧ timeValue f0_01 ∧ timeValue f0_08 ∧ levelValue f0_65 ∧
      fUnits f0_01 + fUnits f0_08 ≤ fUnits f1 ∧ fUnits (fSub f1 f0_12) ≤ fUnits f1 ∧ fUnits f1 ≤ fUnits f2 := by
  decide +kernel

theorem witness_ToneRendersNotes :
    toneState.build.caps.wf = true ∧ toneReady toneState ∧ 0 < toneState.phraseLen.toNat ∧
      1 < rneInt (fMul (fMul (melBeats toneState 0) (fDiv f60 toneState.bpm)) (ofNatF toneState.srate.toNat)) := by
  decide +kernel

/-- A note of legal frequency and illegal duration. -/
def toneBadBeats : State := filled .mel [f1, 0] { toneState with mem := [] }

/-- A note shorter than half a sample. -/
def toneShort : State := filled .mel [0, fTwoM32] { toneState with mem := [] }

theorem witness_ToneRejectsFirstBadOperand :
    (∃ s : State, ¬ positiveValue s.bpm) ∧ (∃ s : State, positiveValue s.bpm ∧ ¬ rateValue s.srate) ∧
      (∃ s : State, positiveValue s.bpm ∧ rateValue s.srate ∧ s.phraseLen = 0) ∧
      (∃ s : State, positiveValue s.bpm ∧ rateValue s.srate ∧ 1 ≤ s.phraseLen.toNat ∧
        s.build.caps.maxNotes < s.phraseLen.toNat) ∧
      (∃ s : State, toneScalars s ∧ 0 < s.phraseLen.toNat ∧ ¬ freqValue (melFreq s 0)) ∧
      (∃ s : State, toneScalars s ∧ 0 < s.phraseLen.toNat ∧ freqValue (melFreq s 0) ∧ ¬ positiveValue (melBeats s 0)) ∧
      (∃ s : State, toneScalars s ∧ (∀ k, k < s.phraseLen.toNat → toneNote s k) ∧
        s.build.caps.maxSamples < noteStart s s.phraseLen.toNat) ∧
      ∃ s : State, toneReady s ∧ noteStart s s.phraseLen.toNat = 0 :=
  ⟨⟨State.reset, by decide +kernel⟩, ⟨{ toneState with srate := 0x80000000 }, by decide +kernel⟩,
    ⟨{ toneState with phraseLen := 0 }, by decide +kernel⟩, ⟨{ toneState with phraseLen := 1025 }, by decide +kernel⟩,
    ⟨filled .mel [fm1, f1] { toneState with mem := [] }, by decide +kernel⟩, ⟨toneBadBeats, by decide +kernel⟩,
    ⟨{ toneState with build := smallBuild }, by decide +kernel⟩, toneShort, by decide +kernel⟩

/-- A command whose validation passes ends successfully. -/
theorem completes {i : Instr} {s : State} (h : commandCheck i s = none) :
    exec i s = .next (finish (commandEffect i s)) ∧ (finish (commandEffect i s)).done = true :=
  ⟨by rw [exec_eq, h]; rfl, rfl⟩

/-- A command whose validation fails faults. -/
theorem faults {i : Instr} {s : State} {f : FaultRecord} (h : commandCheck i s = some f) :
    exec i s = .next (raiseFault f s) := by rw [exec_eq, h]; rfl

theorem witness_ToneRestsAndStartsSilent :
    (∃ t, exec .tone toneState = .next t ∧ t.done = true) ∧ toneState.build.caps.wf = true ∧
      0 < toneState.phraseLen.toNat ∧ 0 < toneCount toneState 0 :=
  ⟨⟨_, completes (by decide +kernel)⟩, by decide +kernel⟩

theorem witness_ToneSamplesWithinHeadroom :
    (∃ t, exec .tone toneState = .next t ∧ t.done = true ∧ 0 < t.smpLen.toNat) ∧ toneState.build.caps.wf = true :=
  ⟨⟨_, (completes (by decide +kernel)).1, rfl, by decide +kernel⟩, by decide⟩

theorem witness_KickWritesVoice :
    hitValue (hitState f0_2).tIn ∧ (0 ≤ fUnits (hitState f0_2).tIn ∧ fUnits (hitState f0_2).tIn ≤ fUnits f0_2) ∧
      hitValue (hitState fNegTwo32).tIn ∧ ¬ 0 ≤ fUnits (hitState fNegTwo32).tIn := by decide +kernel

theorem witness_SnareWritesVoice :
    hitValue (hitState f0_17).tIn ∧ (0 ≤ fUnits f0_17 ∧ fUnits f0_17 ≤ fUnits f0_17) ∧ hitValue (hitState fTwo32).tIn ∧
      ¬ fUnits fTwo32 ≤ fUnits f0_17 := by decide +kernel

theorem witness_HatWritesVoice :
    hitValue (hitState f0_07).tIn ∧ (0 ≤ fUnits f0_07 ∧ fUnits f0_07 ≤ fUnits f0_07) ∧ hitValue (hitState fTwo32).tIn ∧
      ¬ fUnits fTwo32 ≤ fUnits f0_07 := by decide +kernel

theorem witness_VoicesRejectTime :
    (¬ hitValue (hitState 0x41F0000000000001).tIn) ∧ ¬ hitValue (hitState 0x7FF8000000000000).tIn := by decide +kernel

theorem witness_AmplitudeDecaysToZero :
    fIsFinite f0 = true ∧ fIsFinite f0_18 = true ∧ 0 < fUnits f0_18 ∧ 0 ≤ fUnits f0 ∧ fUnits f0 ≤ fUnits f0_18 ∧
      fUnits f0_18 ≤ fUnits f0_18 := by decide +kernel

theorem witness_VoicesWithinUnit :
    fIsFinite f0_2 = true ∧ 0 ≤ fUnits f0_2 ∧ unitValue fm1 ∧ fUnits f0_2 ≤ fUnits f0_2 ∧
      fUnits f0_17 ≤ fUnits f0_17 ∧ fUnits f0_07 ≤ fUnits f0_07 := by decide +kernel

theorem witness_SeedReseeds : State.reset.build.noise = .reference := by decide

theorem witness_SeqRecordsOnsets : seqState.build.caps.wf = true ∧ seqReady seqState := by decide +kernel

theorem witness_SeqRendersMix :
    seqState.build.caps.wf = true ∧ seqReady seqState ∧
      0 < rneInt (fMul (fMul (ofNatF (2 * 1)) (fDiv (fDiv f60 seqState.bpm) f2)) (ofNatF seqState.srate.toNat)) := by
  decide +kernel

/-- Three drum steps of all voices on a block with one onset of each and one sample. -/
def seqSmall (dl : U32) (loops : U32) (vs : List Word) : State :=
  { filled .drum vs (filled .bass [0] (filled .mel [0] State.reset)) with
    bpm := f120, srate := 1, loops := loops, phraseLen := 1, drumLen := dl, build := smallBuild }

/-- `seqState` with its tables written anew. -/
def seqTables (mel bass : List Word) : State := filled .bass bass (filled .mel mel { seqState with mem := [] })

theorem witness_SeqRejectsScalars :
    (∃ s : State, ¬ positiveValue s.bpm) ∧ (∃ s : State, positiveValue s.bpm ∧ ¬ rateValue s.srate) ∧
      (∃ s : State, positiveValue s.bpm ∧ rateValue s.srate ∧ s.loops = 0) ∧
      (∃ s : State, positiveValue s.bpm ∧ rateValue s.srate ∧ s.loops ≠ 0 ∧ s.phraseLen = 0) ∧
      (∃ s : State, positiveValue s.bpm ∧ rateValue s.srate ∧ s.loops ≠ 0 ∧ s.phraseLen ≠ 0 ∧ s.drumLen = 0) ∧
      (∃ s : State, positiveValue s.bpm ∧ rateValue s.srate ∧ s.loops ≠ 0 ∧ s.phraseLen ≠ 0 ∧ s.drumLen ≠ 0 ∧
        s.build.caps.maxNotes < s.phraseLen.toNat) ∧
      (∃ s : State, positiveValue s.bpm ∧ rateValue s.srate ∧ s.loops ≠ 0 ∧ s.phraseLen ≠ 0 ∧ s.drumLen ≠ 0 ∧
        s.phraseLen.toNat ≤ s.build.caps.maxNotes ∧ s.build.caps.maxDrum < s.drumLen.toNat) ∧
      ∃ s : State, positiveValue s.bpm ∧ rateValue s.srate ∧ s.loops ≠ 0 ∧ s.phraseLen ≠ 0 ∧ s.drumLen ≠ 0 ∧
        s.phraseLen.toNat ≤ s.build.caps.maxNotes ∧ s.drumLen.toNat ≤ s.build.caps.maxDrum ∧
        2 ^ 32 < s.phraseLen.toNat * s.loops.toNat :=
  ⟨⟨State.reset, by decide +kernel⟩, ⟨{ seqState with srate := 0 }, by decide +kernel⟩,
    ⟨{ seqState with loops := 0 }, by decide +kernel⟩, ⟨{ seqState with phraseLen := 0 }, by decide +kernel⟩,
    ⟨{ seqState with drumLen := 0 }, by decide +kernel⟩, ⟨{ seqState with phraseLen := 1025 }, by decide +kernel⟩,
    ⟨{ seqState with drumLen := 1025 }, by decide +kernel⟩, { seqState with loops := 0x80000001 }, by decide +kernel⟩

theorem witness_SeqRejectsNotesAndSizes :
    (∃ s : State, seqScalars s ∧ 0 < s.phraseLen.toNat ∧ ¬ freqValue (melFreq s 0)) ∧
      (∃ s : State, seqScalars s ∧ (∀ j, j < s.phraseLen.toNat → freqValue (melFreq s j)) ∧ 1 < s.phraseLen.toNat ∧
        freqValue (bassFreq s 0) ∧ ¬ freqValue (bassFreq s 1)) ∧
      (∃ s : State, seqScalars s ∧ seqNotes s ∧ s.build.caps.maxSamples < seqTotal s) ∧
      (∃ s : State, seqScalars s ∧ seqNotes s ∧ seqTotal s ≤ s.build.caps.maxSamples ∧
        s.build.caps.maxOnsets < hitCount s 0) ∧
      (∃ s : State, seqScalars s ∧ seqNotes s ∧ seqTotal s ≤ s.build.caps.maxSamples ∧
        hitCount s 0 ≤ s.build.caps.maxOnsets ∧ s.build.caps.maxOnsets < hitCount s 1) ∧
      (∃ s : State, seqScalars s ∧ seqNotes s ∧ seqTotal s ≤ s.build.caps.maxSamples ∧
        hitCount s 0 ≤ s.build.caps.maxOnsets ∧ hitCount s 1 ≤ s.build.caps.maxOnsets ∧
        s.build.caps.maxOnsets < hitCount s 2) ∧
      ∃ s : State, seqReady s ∧ seqTotal s = 0 ∧ s.build.caps.wf = true :=
  ⟨⟨seqTables [fm1] [0], by decide +kernel⟩, ⟨seqTables [0, 0, 0, 0] [0, 0, fm1], by decide +kernel⟩,
    ⟨seqSmall 1 8 [0], by decide +kernel⟩, ⟨seqSmall 1 2 [7], by decide +kernel⟩, ⟨seqSmall 1 2 [6], by decide +kernel⟩,
    ⟨seqSmall 1 2 [4], by decide +kernel⟩, seqSmall 1 1 [7], by decide +kernel⟩

theorem witness_SeqDependsOnOperandsOnly :
    ∃ u : State, u ≠ seqState ∧ u.build = seqState.build ∧ u.bpm = seqState.bpm ∧ u.srate = seqState.srate ∧
      u.loops = seqState.loops ∧ u.phraseLen = seqState.phraseLen ∧ u.drumLen = seqState.drumLen ∧
      (∀ k, k < 2 → melFreq u k = melFreq seqState k ∧ bassFreq u k = bassFreq seqState k) ∧
      ∀ j, j < 2 → drumStep u j = drumStep seqState j :=
  ⟨{ seqState with rng := 7 }, by decide +kernel⟩

/-- A render of rests over a silent drum step. -/
def seqRests : State :=
  { filled .drum [0] (filled .bass [0] (filled .mel [0] State.reset)) with
    bpm := f120, srate := 4, loops := 1, phraseLen := 1, drumLen := 1 }

theorem witness_SeqSilentWhereNothingSounds :
    ∃ t, exec .seq seqRests = .next t ∧ t.done = true ∧ seqRests.build.caps.wf = true ∧ 0 < t.smpLen.toNat ∧
      melFreq seqRests (stepIndex seqRests (sampleTime seqRests 0)) = 0 ∧
      bassFreq seqRests (stepIndex seqRests (sampleTime seqRests 0)) = 0 ∧
      onsetList t .onsK t.nK.toNat = [] ∧ onsetList t .onsS t.nS.toNat = [] ∧ onsetList t .onsH t.nH.toNat = [] :=
  ⟨_, (completes (by decide +kernel)).1, rfl, by decide, by decide +kernel⟩

theorem witness_OnsetListsAscend :
    (∃ t, exec .seq seqState = .next t ∧ t.done = true) ∧ seqState.build.caps.wf = true :=
  ⟨⟨_, completes (by decide +kernel)⟩, by decide⟩

theorem witness_ProducedSamplesInRange :
    (∃ t, exec .tone toneState = .next t ∧ t.done = true ∧ 0 < t.smpLen.toNat) ∧
      ∃ t, exec .seq seqState = .next t ∧ t.done = true ∧ 0 < t.smpLen.toNat :=
  ⟨⟨_, (completes (by decide +kernel)).1, rfl, by decide +kernel⟩,
    ⟨_, (completes (by decide +kernel)).1, rfl, by decide +kernel⟩⟩

theorem witness_PcmwWritesContainer :
    pcmwState.build.caps.wf = true ∧ pcmwReady pcmwState ∧ 2 < pcmwState.smpLen.toNat := by decide +kernel

theorem witness_PcmwRejectsFirstBadOperand :
    (∃ s : State, ¬ rateValue s.srate) ∧
      (∃ s : State, rateValue s.srate ∧ s.build.caps.maxSamples < s.smpLen.toNat) ∧
      (∃ s : State, rateValue s.srate ∧ s.smpLen.toNat ≤ s.build.caps.maxSamples ∧
        s.build.caps.maxOut < 44 + 2 * s.smpLen.toNat) ∧
      ∃ s : State, s.build.caps.wf = true ∧ rateValue s.srate ∧ s.smpLen = 0 :=
  ⟨⟨State.reset, by decide +kernel⟩, ⟨{ pcmwState with smpLen := 4194305 }, by decide +kernel⟩,
    ⟨{ pcmwState with smpLen := 7, build := { smallBuild with caps := ⟨1, 1, 7, 4, 1, 57⟩ } }, by decide +kernel⟩,
    { pcmwState with smpLen := 0 }, by decide +kernel⟩

theorem witness_PngeWritesContainer : pngeState.build.caps.wf = true ∧ pngeReady pngeState := by decide +kernel

theorem witness_PngeRejectsFirstBadOperand :
    (∃ s : State, s.pixLen.toNat ≠ s.pixW.toNat * s.pixH.toNat * 4) ∧
      (∃ s : State, s.pixLen.toNat = s.pixW.toNat * s.pixH.toNat * 4 ∧ s.pixW = 0) ∧
      (∃ s : State, s.pixLen.toNat = s.pixW.toNat * s.pixH.toNat * 4 ∧ s.pixW ≠ 0 ∧ s.pixH = 0) ∧
      (∃ s : State, pngeShape s ∧ s.build.caps.maxPix < s.pixLen.toNat) ∧
      ∃ s : State, pngeShape s ∧ s.pixLen.toNat ≤ s.build.caps.maxPix ∧
        s.build.caps.maxOut < 57 + (compressOf s.build.compress (pngRaw s)).length :=
  ⟨⟨{ pngeState with pixLen := 5 }, by decide +kernel⟩, ⟨State.reset, by decide +kernel⟩,
    ⟨{ State.reset with pixW := 1 }, by decide +kernel⟩,
    ⟨{ pngeState with pixW := 262145, pixLen := 1048580 }, by decide +kernel⟩,
    { pngeState with build := smallBuild }, by decide +kernel⟩

theorem witness_InvariantOnlyFromPnge :
    ∃ t, exec .pnge { pngeState with pixW := 2 } = .next t ∧ t.done = false ∧ t.fcode = 3 :=
  ⟨_, faults (f := invariantFault 4) (by decide +kernel), rfl, rfl⟩

theorem witness_PngePixelsRecoverable :
    ∃ t, exec .pnge pngeState = .next t ∧ t.done = true ∧ pngeState.build.caps.wf = true ∧
      0 < pngeState.pixH.toNat ∧ 3 < 4 * pngeState.pixW.toNat :=
  ⟨_, (completes (by decide +kernel)).1, rfl, by decide +kernel⟩

theorem witness_ContainersDependOnOperandsOnly :
    ({ pcmwState with rng := 7 } : State) ≠ pcmwState ∧
      (∀ j, j < 3 → sampleAt { pcmwState with rng := 7 } j = sampleAt pcmwState j) ∧
      ∀ b, b < 4 → pixByte { pngeState with bpm := f1 } b = pixByte pngeState b := by decide +kernel

theorem witness_StepKeepsLegal : legal State.reset = true ∧ legal (accepted 6) = true ∧ goesOn (accepted 9) :=
  ⟨by decide +kernel, by decide +kernel, _, rfl⟩

theorem witness_CommandsWriteOnlyTheirResults :
    (∃ t, exec .kick State.reset = .next t) ∧ State.reset.build.caps.wf = true :=
  ⟨⟨_, (completes (by decide +kernel)).1⟩, by decide⟩

theorem witness_StepKeepsParameters : goesOn (cmdWrite 1) := ⟨_, rfl⟩

/-- The largest finite number, and half of its last bit: their sum is the first that overflows. -/
theorem witness_ArithmeticRoundsToNearest :
    (fIsFinite f0_12 = true ∧ fIsFinite f0_07 = true ∧ fUnits f0_07 ≠ 0) ∧
      (fIsFinite 0x7FEFFFFFFFFFFFFF = true ∧ fIsFinite 0x7C90000000000000 = true ∧ fIsFinite 0x7C8FFFFFFFFFFFFF = true) ∧
      (fUnits 0x7FEFFFFFFFFFFFFF + fUnits 0x7C90000000000000).natAbs = (2 ^ 54 - 1) * 2 ^ 2044 ∧
      (fUnits 0x7FEFFFFFFFFFFFFF + fUnits 0x7C8FFFFFFFFFFFFF).natAbs < (2 ^ 54 - 1) * 2 ^ 2044 ∧
      fUnits 0x8000000000000000 + fUnits 0x8000000000000000 = 0 := by decide +kernel

theorem witness_ClampAndSignByValue :
    fIsFinite f2 = true ∧ fIsFinite fm1 = true ∧ fIsFinite f1 = true ∧ fUnits fm1 ≤ fUnits f1 ∧ 0 < fUnits f1 ∧
      fUnits fm1 < 0 ∧ fUnits f0 = 0 := by decide +kernel

theorem witness_QuantTruncatesTowardZero :
    fIsFinite fm1 = true ∧ 0 ≤ fUnits (fMul f1 f32767) ∧ fUnits (fMul fm1 f32767) < 0 := by decide +kernel

theorem witness_IntegersRoundAndConvert :
    fIsFinite fHalf = true ∧ 0 ≤ fUnits fHalf ∧
      2 * ((rneInt fHalf : Int) * oneUnits - fUnits fHalf).natAbs = oneUnits ∧ 9007199254740992 ≤ 2 ^ 53 := by
  decide +kernel

theorem witness_FloorAndFmodExact :
    fIsFinite f1 = true ∧ fIsFinite f0_07 = true ∧ 0 ≤ fUnits f1 ∧ 0 < fUnits f0_07 := by decide +kernel

theorem witness_SineAndNoiseLaws : fIsFinite fTwo32 = true ∧ fUnits (0x8000000000000000 : F64) = 0 := by
  decide +kernel

theorem witness_NoiseReferenceStep : 0 < 1337 ∧ 1337 < 2 ^ 32 := by decide

end Sys2Proof.Tests
end

