-- ==== Sys2Proof/Proofs/Scope.lean ====
section
/-! PROOFS. The scope of the model (`00_scope.md`): what the block cannot change of the world around it, the
parameters it was built with and the host's coming moves. -/

namespace Sys2Proof.Machine

/-! The commands: neither validation nor effect touches the parameters or the host's moves. -/

@[simp] theorem writeOut_outside (bytes : List Byte) (s : State) :
    (writeOut bytes s).build = s.build ∧ (writeOut bytes s).inputs = s.inputs := by
  simp [writeOut]

@[simp] theorem prepass_outside (s : State) :
    (prepass s).build = s.build ∧ (prepass s).inputs = s.inputs := by
  simp [prepass]

theorem commandEffect_outside (i : Instr) (s : State) :
    (commandEffect i s).build = s.build ∧ (commandEffect i s).inputs = s.inputs := by
  cases i with
  | env => exact ⟨rfl, rfl⟩
  | tone => simp [commandEffect, toneEffect]
  | kick => exact ⟨rfl, rfl⟩
  | snare => simp only [commandEffect, snareEffect]; split <;> exact ⟨rfl, rfl⟩
  | hat => simp only [commandEffect, hatEffect]; split <;> exact ⟨rfl, rfl⟩
  | seq => simp [commandEffect, seqEffect]
  | pcmw => exact writeOut_outside _ s
  | pnge => exact writeOut_outside _ s
  | seed => exact ⟨rfl, rfl⟩

theorem exec_outside {i : Instr} {s t : State} (h : exec i s = .next t) :
    t.build = s.build ∧ t.inputs = s.inputs := by
  rw [exec_eq] at h
  obtain ⟨-, hend⟩ | ⟨f, -, hend⟩ := runCommand_cases (commandCheck i s) (commandEffect i) s
  · obtain rfl : finish (commandEffect i s) = t := by simpa [hend] using h
    simpa using commandEffect_outside i s
  · obtain rfl : raiseFault f s = t := by simpa [hend] using h
    simp

/-! The host's events. -/

theorem writeReg_outside (r : Reg) (d : Word) (s : State) :
    (writeReg r d s).build = s.build ∧ (writeReg r d s).inputs = s.inputs := by
  cases r <;> exact ⟨rfl, rfl⟩

theorem writeStatus_outside (d : Word) (s : State) :
    (writeStatus d s).build = s.build ∧ (writeStatus d s).inputs = s.inputs := by
  unfold writeStatus; split <;> exact ⟨rfl, rfl⟩

/-- What an accepted write to a register does, by the kind of the register (R72, R75, R77). -/
theorem busWriteReg_cases {r : Reg} {d : Word} {s t : State} (h : busWriteReg r d s = some t) :
    (regAccess r = .writeOnly ∧ s.fault = false ∧ t = accept d s) ∨
    (regAccess r = .writeOneToClear ∧ t = writeStatus d s) ∨
    (regAccess r = .readWrite ∧ t = writeReg r d s) := by
  unfold busWriteReg at h
  cases hr : regAccess r <;> cases hf : s.fault <;> simp_all

/-- What an accepted write to an address does: it reaches a register, or a word of a table the host may write, of
an idle block (R72, R74 to R77). -/
theorem busWrite_cases {a : Addr} {d : Word} {s t : State} (h : busWrite a d s = some t) :
    s.running = none ∧
      ((∃ r, locate s.build.caps a = some (.reg r) ∧ busWriteReg r d s = some t) ∨
        ∃ tb w, locate s.build.caps a = some (.elem tb w) ∧ tableHostWrites tb = true ∧
          t = storeElem tb w d s) := by
  unfold busWrite at h
  split at h
  · cases h
  · next hb =>
    refine ⟨by simpa [busy] using hb, ?_⟩
    split at h
    · next r hl => exact .inl ⟨r, hl, h⟩
    · next tb w hl =>
      split at h
      · next hw => exact .inr ⟨tb, w, hl, hw, by simpa using h.symm⟩
      · cases h
    · cases h

theorem busWrite_outside {a : Addr} {d : Word} {s t : State} (h : busWrite a d s = some t) :
    t.build = s.build ∧ t.inputs = s.inputs := by
  obtain ⟨-, ⟨r, -, hreg⟩ | ⟨tb, w, -, -, rfl⟩⟩ := busWrite_cases h
  · obtain ⟨-, -, rfl⟩ | ⟨-, rfl⟩ | ⟨-, rfl⟩ := busWriteReg_cases hreg
    · simp
    · exact writeStatus_outside d s
    · exact writeReg_outside r d s
  · simp

/-- No event of the host changes the parameters or the moves that come after it, not even a reset (log 3, 14). -/
theorem hostEvent_outside (e : HostEvent) (s : State) :
    (hostEvent e s).build = s.build ∧ (hostEvent e s).inputs = s.inputs := by
  cases e with
  | read a => exact ⟨rfl, rfl⟩
  | write a d =>
    cases hw : busWrite a d s with
    | none => rw [hostEvent_write_refused hw]; exact ⟨rfl, rfl⟩
    | some u =>
      obtain ⟨hbuild, hinputs⟩ := busWrite_outside hw
      rw [hostEvent_write_ok hw]
      exact ⟨hbuild, hinputs⟩
  | reset => exact ⟨rfl, rfl⟩

/-! A step. -/

/-- When the host moves next, the move is its oldest one and the rest are the moves after it (log 1). -/
theorem inputs_of_nextMove_host {s : State} {e : HostEvent} {rest : List Input}
    (h : nextMove s = .host e rest) : ∃ i, s.inputs = i :: rest ∧ i.event = e := by
  unfold nextMove at h
  split at h
  · next d i tail _ hin =>
    split at h
    · cases h; exact ⟨i, hin, rfl⟩
    · cases h
  · cases h
  · next i tail _ hin => cases h; exact ⟨i, hin, rfl⟩
  · cases h

/-- What a step can be: a move of the host, a legal command run to its end, an illegal command word's fault, or
nothing (R13, R70, R250, R259). -/
theorem step_cases {s t : State} (h : step s = .next t) :
    (∃ e rest, nextMove s = .host e rest ∧ t = hostEvent e { s with inputs := rest }) ∨
    (∃ d i, nextMove s = .command d ∧ decode d = .ok i ∧ exec i s = .next t) ∨
    (∃ d x, nextMove s = .command d ∧ decode d = .error x ∧ t = raiseFault (illegalCmd d) s) ∨
    (nextMove s = .idle ∧ t = s) := by
  unfold step at h
  split at h
  · next e rest hm => cases h; exact .inl ⟨e, rest, hm, rfl⟩
  · next d hm =>
    split at h
    · next i hd => exact .inr (.inl ⟨d, i, hm, hd, h⟩)
    · next x hd => cases h; exact .inr (.inr (.inl ⟨d, x, hm, hd, rfl⟩))
  · next hm => cases h; exact .inr (.inr (.inr ⟨hm, rfl⟩))

/-- Settles O52, by the four kinds of step: only the host's own move shortens the list of its moves, by that one. -/
theorem stepKeepsParameters : Obligations.StepKeepsParameters := by
  intro s t h
  obtain ⟨e, rest, hm, rfl⟩ | ⟨d, i, -, -, hexec⟩ | ⟨d, x, -, -, rfl⟩ | ⟨-, rfl⟩ := step_cases h
  · obtain ⟨i, hin, -⟩ := inputs_of_nextMove_host hm
    obtain ⟨hbuild, hinputs⟩ := hostEvent_outside e { s with inputs := rest }
    exact ⟨hbuild, .inr ⟨i, by rw [hin, hinputs]⟩⟩
  · obtain ⟨hbuild, hinputs⟩ := exec_outside hexec
    exact ⟨hbuild, .inl hinputs⟩
  · exact ⟨raiseFault_build _ s, .inl (raiseFault_inputs _ s)⟩
  · exact ⟨rfl, .inl rfl⟩

end Sys2Proof.Machine
end

/-! PROOFS. The state of the block (`10_state.md`): where its registers and tables stand, that every step keeps it
legal, what each command may write, and the range of the samples it produces. -/

namespace Sys2Proof.Machine

/-! ### Addresses (R73): the fields of an address, and the way from a register or a table word and back -/

theorem addrRegion_eq (a : Addr) : addrRegion a = a.toNat / 2 ^ 28 := by
  simp only [addrRegion, BitVec.extractLsb'_toNat, Nat.shiftRight_eq_div_pow]
  omega

theorem addrWord_eq (a : Addr) : addrWord a = a.toNat % 2 ^ 28 / 8 := by
  simp only [addrWord, BitVec.extractLsb'_toNat, Nat.shiftRight_eq_div_pow]
  omega

theorem addrAligned_iff (a : Addr) : addrAligned a = true ↔ a.toNat % 8 = 0 := by
  simp [addrAligned, BitVec.toNat_eq]

@[simp] theorem tableAt_tableRegion (t : Table) : tableAt (tableRegion t) = some t := by cases t <;> rfl

theorem tableRegion_bounds (t : Table) : 1 ≤ tableRegion t ∧ tableRegion t ≤ 9 := by cases t <;> decide

theorem wordAddr_region {t : Table} {w j : Nat} (hw : w < 2 ^ 25) (hj : j < 8) :
    (wordAddr t w + j) / 2 ^ 28 = tableRegion t := by
  unfold wordAddr; omega

theorem wordAddr_word {t : Table} {w j : Nat} (hw : w < 2 ^ 25) (hj : j < 8) :
    (wordAddr t w + j) % 2 ^ 28 / 8 = w := by
  unfold wordAddr; omega

theorem wordAddr_byte {t : Table} {w j : Nat} (hj : j < 8) : (wordAddr t w + j) % 8 = j := by
  unfold wordAddr; omega

/-- The constraints of R5 keep every word index within the 25 bits of an address. -/
theorem tableWords_le {c : Caps} (h : c.wf = true) (t : Table) : tableWords c t ≤ 2 ^ 25 := by
  simp only [Caps.wf, Bool.and_eq_true, decide_eq_true_eq] at h
  cases t <;> simp only [tableWords] <;> omega

@[simp] theorem locate_regOffset (c : Caps) (r : Reg) :
    locate c (BitVec.ofNat 32 (regOffset r)) = some (.reg r) := by
  cases r <;> rfl

theorem locate_wordAddr {c : Caps} {t : Table} {w : Nat} (hw : w < 2 ^ 25) (h : w < tableWords c t) :
    locate c (BitVec.ofNat 32 (wordAddr t w)) = some (.elem t w) := by
  obtain ⟨hlow, hhigh⟩ := tableRegion_bounds t
  have haddr : (BitVec.ofNat 32 (wordAddr t w)).toNat = wordAddr t w + 0 := by
    simp only [wordAddr, BitVec.toNat_ofNat]; omega
  have haligned : addrAligned (BitVec.ofNat 32 (wordAddr t w)) = true := by
    rw [addrAligned_iff, haddr, wordAddr_byte (by decide)]
  have hregion : addrRegion (BitVec.ofNat 32 (wordAddr t w)) = tableRegion t := by
    rw [addrRegion_eq, haddr, wordAddr_region hw (by decide)]
  have hword : addrWord (BitVec.ofNat 32 (wordAddr t w)) = w := by
    rw [addrWord_eq, haddr, wordAddr_word hw (by decide)]
  simp [locate, haligned, hregion, hword, h, Nat.ne_of_gt hlow]

/-- A table word found at an address exists. -/
theorem locate_elem_lt {c : Caps} {a : Addr} {t : Table} {w : Nat} (h : locate c a = some (.elem t w)) :
    w < tableWords c t := by
  unfold locate at h
  split at h
  · split at h
    · simp at h
    · split at h
      · split at h
        · next hlt => cases h; exact hlt
        · cases h
      · cases h
  · cases h

/-! ### Registers (R21 to R23) -/

/-- A write to an RW register is read back, a u32 register's low 32 bits (R21). -/
theorem readReg_writeReg_same {r : Reg} (d : Word) (s : State) (h : regAccess r = .readWrite) :
    readReg (writeReg r d s) r =
      if r ∈ [Reg.tIn, .envA, .envD, .envS, .envR, .envT, .bpm] then d else (d.setWidth 32).setWidth 64 := by
  cases r <;> simp_all [regAccess, readReg, writeReg]

/-- Each register has a field of its own, and STATUS none that a write to an RW register reaches (R21, R72). -/
theorem readReg_writeReg_other {q r : Reg} (d : Word) (s : State) (h : q ≠ r) :
    readReg (writeReg r d s) q = readReg s q := by
  cases r with
  | cmd | status | finfo | result | outLen | nK | nS | nH | id => rfl
  | _ => cases q <;> simp_all [readReg, writeReg, statusWord, busy]

@[simp] theorem writeReg_mem (r : Reg) (d : Word) (s : State) : (writeReg r d s).mem = s.mem := by cases r <;> rfl
@[simp] theorem writeReg_rng (r : Reg) (d : Word) (s : State) : (writeReg r d s).rng = s.rng := by cases r <;> rfl
@[simp] theorem writeReg_resets (r : Reg) (d : Word) (s : State) : (writeReg r d s).resets = s.resets := by
  cases r <;> rfl
@[simp] theorem writeReg_running (r : Reg) (d : Word) (s : State) : (writeReg r d s).running = s.running := by
  cases r <;> rfl

/-- The answer lines of the port are no register. -/
@[simp] theorem readReg_answer (s : State) (x : Option Answer) (q : Reg) :
    readReg { s with answer := x } q = readReg s q := by
  cases q <;> rfl

/-- An idle block takes a write to an RW register (R72). -/
theorem hostEvent_write_readWrite {s : State} {r : Reg} (d : Word) (hidle : s.running = none)
    (h : regAccess r = .readWrite) :
    hostEvent (.write (BitVec.ofNat 32 (regOffset r)) d) s = { writeReg r d s with answer := some .ok } := by
  apply hostEvent_write_ok
  simp [busWrite, busy, hidle, busWriteReg, h]

theorem busRead_regOffset {s : State} (r : Reg) (hidle : s.running = none) :
    busRead s (BitVec.ofNat 32 (regOffset r)) = .okData (readReg s r) := by
  simp [busRead, busy, hidle]

/-- Settles O11, by the rules for one register: the written one is read back, every other one is unchanged. -/
theorem registerWriteThenRead : Obligations.RegisterWriteThenRead := by
  intro s t d r hidle hrw ht
  rw [hostEvent_write_readWrite d hidle hrw] at ht
  subst ht
  obtain ⟨hbuild, hinputs⟩ := writeReg_outside r d s
  refine ⟨rfl, ?_, fun q hq => ?_, writeReg_mem r d s, writeReg_rng r d s, hbuild, writeReg_resets r d s, hinputs⟩
  · rw [busRead_regOffset r (by simpa using hidle), readReg_answer, readReg_writeReg_same d s hrw]
  · rw [readReg_answer, readReg_writeReg_other d s hq]

/-- Each bit of STATUS, by the table of R23. -/
theorem getLsbD_statusWord (s : State) (i : Nat) :
    (statusWord s).getLsbD i =
      if i = 0 then busy s else if i = 1 then s.done else if i = 2 then s.fault
      else if i < 8 then false else s.fcode.getLsbD (i - 8) := by
  simp only [statusWord, BitVec.getLsbD_append, BitVec.getLsbD_ofBool, BitVec.getLsbD_zero]
  split <;> grind

/-- Settles O17, by the bits of STATUS; a read of STATUS is answered also while BUSY. -/
theorem statusFields : Obligations.StatusFields := by
  intro s
  refine ⟨?_, getLsbD_statusWord s 0, getLsbD_statusWord s 1, getLsbD_statusWord s 2, ?_, ?_, ?_⟩
  · have hloc : locate s.build.caps 0x00000008#32 = some (.reg .status) := locate_regOffset _ .status
    simp [busRead, statusAddr, hloc, readReg]
  all_goals
    ext i hi
    simp only [BitVec.getElem_extractLsb', getLsbD_statusWord]
    grind

/-! ### Table words (R39) -/

/-- An element depends on the memory and the number of resets only. -/
theorem loadElem_congr {s t : State} (hmem : s.mem = t.mem) (hresets : s.resets = t.resets) (tb : Table) (w : Nat) :
    loadElem s tb w = loadElem t tb w := by
  unfold loadElem
  rw [loadBytes_congr _ _ fun x _ _ => readByte_congr hmem hresets x]

@[simp] theorem loadElem_answer (s : State) (x : Option Answer) (t : Table) (w : Nat) :
    loadElem { s with answer := x } t w = loadElem s t w :=
  loadElem_congr (s := { s with answer := x }) (t := s) rfl rfl t w

/-- An idle block takes a write to a table word the host may write (R72, R73). -/
theorem hostEvent_write_elem {s : State} {t : Table} {w : Nat} (d : Word) (hwf : s.build.caps.wf = true)
    (hidle : s.running = none) (ht : tableHostWrites t = true) (hw : w < tableWords s.build.caps t) :
    hostEvent (.write (BitVec.ofNat 32 (wordAddr t w)) d) s = { storeElem t w d s with answer := some .ok } := by
  have hloc := locate_wordAddr (Nat.lt_of_lt_of_le hw (tableWords_le hwf t)) hw
  apply hostEvent_write_ok
  simp [busWrite, busy, hidle, hloc, ht]

theorem busRead_wordAddr {s : State} {t : Table} {w : Nat} (hwf : s.build.caps.wf = true)
    (hidle : s.running = none) (hw : w < tableWords s.build.caps t) :
    busRead s (BitVec.ofNat 32 (wordAddr t w)) = .okData (loadElem s t w) := by
  have hloc := locate_wordAddr (Nat.lt_of_lt_of_le hw (tableWords_le hwf t)) hw
  simp [busRead, busy, hidle, hloc]

/-- Settles O12, by the rules for one element: the written one is read back cut to its width, no other element and
no byte outside it changes. -/
theorem tableWriteThenRead : Obligations.TableWriteThenRead := by
  intro s t d tb w hwf hidle htb hw ht
  rw [hostEvent_write_elem d hwf hidle htb hw] at ht
  subst ht
  have hw25 := Nat.lt_of_lt_of_le hw (tableWords_le hwf tb)
  refine ⟨?_, ?_, fun ub x hx hne => ?_, fun a ha => ?_⟩
  · exact congrArg (fun u => { u with answer := some Answer.ok }) (storeElem_eq tb w d s)
  · rw [busRead_wordAddr (by simpa using hwf) (by simpa using hidle) (by simpa using hw), loadElem_answer,
      loadElem_storeElem_same]
  · rw [loadElem_answer, loadElem_storeElem_other d s hw25 (Nat.lt_of_lt_of_le hx (tableWords_le hwf ub)) hne]
  · exact readByte_storeElem_other tb w d s ha

/-! ### Legal tables (R39, R79): every store into an existing element keeps them -/

theorem tablesOk_iff (s : State) :
    tablesOk s = true ↔
      Memory.wf s.mem = true ∧ ∀ x ∈ s.mem, cellExists s.build.caps x.1 = true ∧ cellFits x = true := by
  simp [tablesOk]

theorem tablesOk_congr {s t : State} (hmem : t.mem = s.mem) (hbuild : t.build = s.build) :
    tablesOk t = tablesOk s := by
  simp [tablesOk, hmem, hbuild]

theorem tablesOk_writeByte {a : Nat} {v : Byte} {s : State} (h : tablesOk s = true)
    (hexists : cellExists s.build.caps a = true) (hfits : cellFits (a, v) = true) :
    tablesOk (writeByte a v s) = true := by
  rw [tablesOk_iff] at h ⊢
  obtain ⟨hwf, hcells⟩ := h
  refine ⟨memWrite_wf _ _ _ hwf, fun x hx => ?_⟩
  obtain rfl | hold := mem_memWrite hx
  · exact ⟨hexists, hfits⟩
  · exact hcells x hold

theorem tablesOk_storeBytes {a n v : Nat} {s : State} (h : tablesOk s = true)
    (hcells : ∀ j, j < n →
      cellExists s.build.caps (a + j) = true ∧ cellFits (a + j, BitVec.ofNat 8 (v / 256 ^ j)) = true) :
    tablesOk (storeBytes a n v s) = true := by
  induction n generalizing a v s with
  | zero => exact h
  | succ n ih =>
    obtain ⟨hexists, hfits⟩ := hcells 0 (Nat.succ_pos n)
    refine ih (tablesOk_writeByte h hexists (by simpa using hfits)) fun j hj => ?_
    have hnext := hcells (j + 1) (Nat.succ_lt_succ hj)
    rwa [pow_succ', ← Nat.div_div_eq_div_mul, ← Nat.add_assoc, Nat.add_right_comm] at hnext

theorem cellExists_of_tableAt {c : Caps} {t : Table} {a : Nat} (h : tableAt (a / 2 ^ 28) = some t) :
    cellExists c a = (decide (a % 2 ^ 28 / 8 < tableWords c t) && decide (a % 8 < tableBytes t)) := by
  unfold cellExists; rw [h]

/-- The bytes of an existing element exist (R73). -/
theorem cellExists_wordAddr {c : Caps} {t : Table} {w j : Nat} (hwf : c.wf = true) (hw : w < tableWords c t)
    (hj : j < tableBytes t) : cellExists c (wordAddr t w + j) = true := by
  have hw25 := Nat.lt_of_lt_of_le hw (tableWords_le hwf t)
  have hj8 := Nat.lt_of_lt_of_le hj (tableBytes_le t)
  have htable : tableAt ((wordAddr t w + j) / 2 ^ 28) = some t := by
    rw [wordAddr_region hw25 hj8, tableAt_tableRegion]
  rw [cellExists_of_tableAt htable, wordAddr_word hw25 hj8, wordAddr_byte hj8]
  simp [hw, hj]

/-- A byte of an element cut to its table's width fits: DRUM alone is narrower than its byte (R42). -/
theorem cellFits_wordAddr {t : Table} {w j : Nat} (v : Nat) (hw : w < 2 ^ 25) (hj : j < tableBytes t) :
    cellFits (wordAddr t w + j, BitVec.ofNat 8 (v % 2 ^ tableBits t / 256 ^ j)) = true := by
  simp only [cellFits, wordAddr_region hw (Nat.lt_of_lt_of_le hj (tableBytes_le t))]
  cases t with
  | drum =>
    obtain rfl : j = 0 := by simpa [tableBytes] using hj
    simp only [tableBits, pow_zero, Nat.div_one, BitVec.toNat_ofNat, Bool.or_eq_true, decide_eq_true_eq]
    omega
  | _ => rfl

theorem tablesOk_storeElem {t : Table} {w : Nat} {s : State} (v : Word) (hwf : s.build.caps.wf = true)
    (hw : w < tableWords s.build.caps t) (h : tablesOk s = true) : tablesOk (storeElem t w v s) = true :=
  tablesOk_storeBytes h fun _ hj =>
    ⟨cellExists_wordAddr hwf hw hj, cellFits_wordAddr _ (Nat.lt_of_lt_of_le hw (tableWords_le hwf t)) hj⟩

theorem tablesOk_storeElems {t : Table} {w : Nat} {vs : List Word} {s : State} (hwf : s.build.caps.wf = true)
    (hlen : w + vs.length ≤ tableWords s.build.caps t) (h : tablesOk s = true) :
    tablesOk (storeElems t w vs s) = true := by
  induction vs generalizing w s with
  | nil => exact h
  | cons v vs ih =>
    simp only [List.length_cons] at hlen
    exact ih (by simpa using hwf) (by rw [storeElem_build]; omega) (tablesOk_storeElem v hwf (by omega) h)

/-- A run of elements from the start of a table stays in the table's region (R73). -/
theorem readByte_storeElems_region {t : Table} {vs : List Word} {a : Nat} (s : State)
    (hlen : vs.length ≤ 2 ^ 25) (ha : a / 2 ^ 28 ≠ tableRegion t) :
    readByte (storeElems t 0 vs s) a = readByte s a := by
  apply readByte_storeElems_other
  simp only [wordAddr]
  omega

/-! ### Legal flags (R23, R24, R254) -/

/-- While BUSY a legal block has neither DONE nor a fault. -/
theorem statusOk_busy {s : State} {d : Word} (h : statusOk s = true) (hbusy : s.running = some d) :
    s.done = false ∧ s.fault = false ∧ s.fcode = 0 ∧ s.finfo = 0 := by
  simp only [statusOk, busy, hbusy] at h
  grind

theorem statusOk_accept {s : State} (d : Word) (h : statusOk s = true) (hfault : s.fault = false) :
    statusOk (accept d s) = true := by
  simp only [statusOk] at h ⊢
  simp_all [busy]

theorem statusOk_finish {s : State} (hfault : s.fault = false) (hcode : s.fcode = 0) (hinfo : s.finfo = 0) :
    statusOk (finish s) = true := by
  simp [statusOk, busy, hfault, hcode, hinfo]

theorem statusOk_raiseFault {f : FaultRecord} (s : State) (hlow : 1 ≤ f.code.toNat) (hhigh : f.code.toNat ≤ 4) :
    statusOk (raiseFault f s) = true := by
  simp [statusOk, busy, hlow, hhigh]

/-- A write to STATUS clears DONE, or a whole fault record (R23, R264). -/
theorem statusOk_writeStatus {s : State} (d : Word) (h : statusOk s = true) : statusOk (writeStatus d s) = true := by
  unfold writeStatus
  split
  all_goals
    simp [statusOk, busy] at h ⊢
    grind

/-! ### Validation (R254, R256 to R258): its fault codes, and what it bounds -/

/-- One of the codes a validation can raise: BAD_PARAM, INVARIANT, CAPACITY (R254). -/
def validationCode (f : FaultRecord) : Prop := 2 ≤ f.code.toNat ∧ f.code.toNat ≤ 4

@[simp] theorem validationCode_badParam (addr : Nat) : validationCode (badParam addr) := by
  simp [validationCode, badParam]

@[simp] theorem validationCode_invariantFault (len : U32) : validationCode (invariantFault len) := by
  simp [validationCode, invariantFault]

@[simp] theorem validationCode_capacityFault (id n : Nat) : validationCode (capacityFault id n) := by
  simp [validationCode, capacityFault]

theorem validationCode_firstFault {l : List (Bool × FaultRecord)} (hl : ∀ c ∈ l, validationCode c.2)
    {f : FaultRecord} (h : firstFault l = some f) : validationCode f := by
  obtain ⟨pre, post, rfl, -⟩ := firstFault_eq_some.1 h
  exact hl (false, f) (by simp)

/-! A validation in parts is one list of checks (R255). The results of the parts are made variables before the case
split, so that no proof evaluates a check. -/

/-- The validation of TONE is one list of checks (R161). -/
theorem toneCheck_eq (s : State) :
    toneCheck s = firstFault (toneScalarChecks s ++ (toneNoteChecks s ++ toneSizeChecks s)) := by
  rw [firstFault_append, firstFault_append]
  unfold toneCheck
  generalize firstFault (toneScalarChecks s) = scalar
  generalize firstFault (toneNoteChecks s) = note
  generalize firstFault (toneSizeChecks s) = size
  cases scalar with
  | some f => rfl
  | none => cases note with
    | some f => rfl
    | none => rfl

/-- The validation of SEQ is one list of checks (R191). -/
theorem seqCheck_eq (s : State) :
    seqCheck s =
      firstFault (seqScalarChecks s ++ (seqNoteChecks s ++ (seqSizeChecks s ++ seqOnsetChecks s))) := by
  rw [firstFault_append, firstFault_append, firstFault_append]
  unfold seqCheck
  generalize firstFault (seqScalarChecks s) = scalar
  generalize firstFault (seqNoteChecks s) = note
  generalize firstFault (seqSizeChecks s) = size
  generalize firstFault (seqOnsetChecks s) = onset
  cases scalar with
  | some f => rfl
  | none => cases note with
    | some f => rfl
    | none => cases size with
      | some f => rfl
      | none => rfl

/-- The validation of PNGE is one list of checks (R231). -/
theorem pngeCheck_eq (s : State) : pngeCheck s = firstFault (pngeScalarChecks s ++ pngeSizeChecks s) := by
  rw [firstFault_append]
  unfold pngeCheck
  generalize firstFault (pngeScalarChecks s) = scalar
  generalize firstFault (pngeSizeChecks s) = size
  cases scalar with
  | some f => rfl
  | none => rfl

theorem commandCheck_code {i : Instr} {s : State} {f : FaultRecord} (h : commandCheck i s = some f) :
    validationCode f := by
  cases i with
  | env => exact validationCode_firstFault (by simp) h
  | tone =>
    rw [commandCheck, toneCheck_eq] at h
    refine validationCode_firstFault ?_ h
    simp only [toneScalarChecks, toneNoteChecks, toneSizeChecks, List.forall_mem_append, List.forall_mem_flatMap]
    simp
  | kick => exact validationCode_firstFault (by simp) h
  | snare => exact validationCode_firstFault (by simp) h
  | hat => exact validationCode_firstFault (by simp) h
  | seq =>
    rw [commandCheck, seqCheck_eq] at h
    refine validationCode_firstFault ?_ h
    simp only [seqScalarChecks, seqNoteChecks, seqSizeChecks, seqOnsetChecks, List.forall_mem_append,
      List.forall_mem_map]
    simp
  | pcmw => exact validationCode_firstFault (by simp) h
  | pnge =>
    rw [commandCheck, pngeCheck_eq] at h
    refine validationCode_firstFault ?_ h
    simp [pngeScalarChecks, pngeSizeChecks]
  | seed => cases h

/-- A TONE that passes its validation fills no more than SMP (R161 (6)). -/
theorem toneTotal_le {s : State} (h : toneCheck s = none) : toneTotal s ≤ s.build.caps.maxSamples := by
  rw [toneCheck_eq, firstFault_eq_none] at h
  have hsize := h (decide (toneTotal s ≤ s.build.caps.maxSamples), capacityFault 3 (toneTotal s))
  simpa [toneSizeChecks] using hsize

/-- A SEQ that passes its validation fills no more than SMP (R191 (11)). -/
theorem seqTotal_le {s : State} (h : seqCheck s = none) : seqTotal s ≤ s.build.caps.maxSamples := by
  rw [seqCheck_eq, firstFault_eq_none] at h
  have hsize := h (decide (seqTotal s ≤ s.build.caps.maxSamples), capacityFault 3 (seqTotal s))
  simpa [seqSizeChecks] using hsize

/-- A SEQ that passes its validation fills no more than the onset lists (R191 (12)). -/
theorem hitCount_le {s : State} (h : seqCheck s = none) :
    hitCount s 0 ≤ s.build.caps.maxOnsets ∧ hitCount s 1 ≤ s.build.caps.maxOnsets ∧
      hitCount s 2 ≤ s.build.caps.maxOnsets := by
  rw [seqCheck_eq, firstFault_eq_none] at h
  have honsets : ∀ c ∈ seqOnsetChecks s, c.1 = true := fun c hc => h c (by simp [hc])
  simpa [seqOnsetChecks] using honsets

/-- A PCMW that passes its validation fills no more than OUT (R222 (3)). -/
theorem wavLength_le {s : State} (h : pcmwCheck s = none) :
    44 + 2 * s.smpLen.toNat ≤ s.build.caps.maxOut := by
  rw [pcmwCheck, firstFault_eq_none] at h
  have hsize := h (decide (44 + 2 * s.smpLen.toNat ≤ s.build.caps.maxOut), capacityFault 8 (44 + 2 * s.smpLen.toNat))
  simpa using hsize

/-- A PNGE that passes its validation fills no more than OUT (R231 (5)). -/
theorem pngLength_le {s : State} (h : pngeCheck s = none) : (pngBytes s).length ≤ s.build.caps.maxOut := by
  rw [pngeCheck_eq, firstFault_eq_none] at h
  have hsize := h (decide ((pngBytes s).length ≤ s.build.caps.maxOut), capacityFault 8 (pngBytes s).length)
  simpa [pngeSizeChecks] using hsize

/-! ### How many elements the commands store -/

@[simp] theorem sampleWords_length (samples : List (BitVec 16)) : (sampleWords samples).length = samples.length := by
  simp [sampleWords]

@[simp] theorem outWords_length (bytes : List Byte) : (outWords bytes).length = bytes.length := by
  simp [outWords]

@[simp] theorem toneSamples_length (s : State) : (toneSamples s).length = toneTotal s := by
  simp [toneSamples, noteSamples, toneTotal, List.length_flatMap]

@[simp] theorem onsets_length (s : State) (b : Nat) : (onsets s b).length = hitCount s b := by
  simp [onsets, hitCount, List.countP_eq_length_filter]

@[simp] theorem seqRender_length (s : State) (i n : Nat) (rng : NoiseState) :
    (seqRender s i n rng).1.length = n := by
  induction n generalizing i rng with
  | zero => rfl
  | succ n ih => simp [seqRender, ih]

@[simp] theorem seqRun_length (s : State) : (seqRun s).1.length = seqTotal s := seqRender_length _ _ _ _

@[simp] theorem wavBytes_length (s : State) : (wavBytes s).length = 44 + 2 * s.smpLen.toNat := by
  simp [wavBytes, wavHeader, sampleBytes, smpSamples, List.length_flatMap, Function.comp_def]
  omega

/-! ### What the commands store (R52)

TONE and SEQ both leave samples, SEQ onset lists too, PCMW and PNGE a container (`writeOut`). The rules for these
three updates speak of any samples, onset times and bytes, so that no proof evaluates a render. -/

/-- What TONE and SEQ leave: samples in SMP from its start on, SMP_LEN and RNG (R160, R190). -/
def storeSamples (samples : List (BitVec 16)) (n : U32) (rng : NoiseState) (s : State) : State :=
  { storeElems .smp 0 (sampleWords samples) s with smpLen := n, rng := rng }

/-- What the pre-pass of SEQ leaves: the three onset lists and their counts (R195). -/
def storeOnsets (kicks snares hats : List F64) (s : State) : State :=
  { storeElems .onsH 0 hats (storeElems .onsS 0 snares (storeElems .onsK 0 kicks s)) with
    nK := BitVec.ofNat 32 kicks.length
    nS := BitVec.ofNat 32 snares.length
    nH := BitVec.ofNat 32 hats.length }

theorem storeSamples_rng_same (samples : List (BitVec 16)) (n : U32) (s : State) :
    { storeElems .smp 0 (sampleWords samples) s with smpLen := n } = storeSamples samples n s.rng s := by
  unfold storeSamples
  rw [storeElems_eq]

theorem toneEffect_eq (s : State) :
    toneEffect s = storeSamples (toneSamples s) (BitVec.ofNat 32 (toneTotal s)) s.rng s :=
  storeSamples_rng_same _ _ _

theorem seqEffect_eq (s : State) :
    seqEffect s =
      storeSamples (seqRun s).1 (BitVec.ofNat 32 (seqTotal s)) (seqRun s).2
        (storeOnsets (onsets s 0) (onsets s 1) (onsets s 2) s) :=
  rfl

/-- `t` differs from `s` in the results of commands at most: RESULT, RNG, the tables, their lengths and counts. -/
def resultsOnly (s t : State) : Prop :=
  t = { s with
    result := t.result, rng := t.rng, mem := t.mem, smpLen := t.smpLen, outLen := t.outLen
    nK := t.nK, nS := t.nS, nH := t.nH }

theorem resultsOnly_storeSamples (samples : List (BitVec 16)) (n : U32) (rng : NoiseState) (s : State) :
    resultsOnly s (storeSamples samples n rng s) := by
  unfold resultsOnly storeSamples
  rw [storeElems_eq]

theorem resultsOnly_storeOnsets (kicks snares hats : List F64) (s : State) :
    resultsOnly s (storeOnsets kicks snares hats s) := by
  unfold resultsOnly storeOnsets
  rw [storeElems_eq .onsH, storeElems_eq .onsS, storeElems_eq .onsK]

theorem resultsOnly_writeOut (bytes : List Byte) (s : State) : resultsOnly s (writeOut bytes s) := by
  unfold resultsOnly writeOut
  rw [storeElems_eq]

theorem resultsOnly_trans {s t u : State} (hst : resultsOnly s t) (htu : resultsOnly t u) : resultsOnly s u := by
  unfold resultsOnly at *
  rw [hst] at htu
  exact htu

/-! ### The rules of the three stores: fields, legal tables, and the region that changes -/

section Stores

variable (samples : List (BitVec 16)) (n : U32) (rng : NoiseState) (kicks snares hats : List F64) (bytes : List Byte)
  (s : State)

@[simp] theorem storeSamples_result : (storeSamples samples n rng s).result = s.result := by simp [storeSamples]
@[simp] theorem storeSamples_rng : (storeSamples samples n rng s).rng = rng := rfl
@[simp] theorem storeSamples_smpLen : (storeSamples samples n rng s).smpLen = n := rfl
@[simp] theorem storeSamples_outLen : (storeSamples samples n rng s).outLen = s.outLen := by simp [storeSamples]
@[simp] theorem storeSamples_nK : (storeSamples samples n rng s).nK = s.nK := by simp [storeSamples]
@[simp] theorem storeSamples_nS : (storeSamples samples n rng s).nS = s.nS := by simp [storeSamples]
@[simp] theorem storeSamples_nH : (storeSamples samples n rng s).nH = s.nH := by simp [storeSamples]

@[simp] theorem storeOnsets_build : (storeOnsets kicks snares hats s).build = s.build := by simp [storeOnsets]
@[simp] theorem storeOnsets_result : (storeOnsets kicks snares hats s).result = s.result := by simp [storeOnsets]
@[simp] theorem storeOnsets_outLen : (storeOnsets kicks snares hats s).outLen = s.outLen := by simp [storeOnsets]
@[simp] theorem storeOnsets_nK : (storeOnsets kicks snares hats s).nK = BitVec.ofNat 32 kicks.length := rfl
@[simp] theorem storeOnsets_nS : (storeOnsets kicks snares hats s).nS = BitVec.ofNat 32 snares.length := rfl
@[simp] theorem storeOnsets_nH : (storeOnsets kicks snares hats s).nH = BitVec.ofNat 32 hats.length := rfl

@[simp] theorem writeOut_result : (writeOut bytes s).result = s.result := by simp [writeOut]
@[simp] theorem writeOut_rng : (writeOut bytes s).rng = s.rng := by simp [writeOut]
@[simp] theorem writeOut_smpLen : (writeOut bytes s).smpLen = s.smpLen := by simp [writeOut]
@[simp] theorem writeOut_outLen : (writeOut bytes s).outLen = BitVec.ofNat 32 bytes.length := rfl
@[simp] theorem writeOut_nK : (writeOut bytes s).nK = s.nK := by simp [writeOut]
@[simp] theorem writeOut_nS : (writeOut bytes s).nS = s.nS := by simp [writeOut]
@[simp] theorem writeOut_nH : (writeOut bytes s).nH = s.nH := by simp [writeOut]

variable {samples kicks snares hats bytes s}

theorem tablesOk_storeSamples (hwf : s.build.caps.wf = true) (hlen : samples.length ≤ s.build.caps.maxSamples)
    (h : tablesOk s = true) : tablesOk (storeSamples samples n rng s) = true :=
  (tablesOk_congr rfl rfl).trans
    (tablesOk_storeElems (t := .smp) (w := 0) (vs := sampleWords samples) hwf (by simpa [tableWords] using hlen) h)

theorem tablesOk_storeOnsets (hwf : s.build.caps.wf = true) (hkicks : kicks.length ≤ s.build.caps.maxOnsets)
    (hsnares : snares.length ≤ s.build.caps.maxOnsets) (hhats : hats.length ≤ s.build.caps.maxOnsets)
    (h : tablesOk s = true) : tablesOk (storeOnsets kicks snares hats s) = true := by
  have hstoreK : tablesOk (storeElems .onsK 0 kicks s) = true :=
    tablesOk_storeElems hwf (by simpa [tableWords] using hkicks) h
  have hstoreS : tablesOk (storeElems .onsS 0 snares (storeElems .onsK 0 kicks s)) = true :=
    tablesOk_storeElems (by simpa using hwf) (by simpa [tableWords] using hsnares) hstoreK
  exact (tablesOk_congr rfl rfl).trans
    (tablesOk_storeElems (t := .onsH) (w := 0) (by simpa using hwf) (by simpa [tableWords] using hhats) hstoreS)

theorem tablesOk_writeOut (hwf : s.build.caps.wf = true) (hlen : bytes.length ≤ s.build.caps.maxOut)
    (h : tablesOk s = true) : tablesOk (writeOut bytes s) = true :=
  (tablesOk_congr rfl rfl).trans
    (tablesOk_storeElems (t := .out) (w := 0) (vs := outWords bytes) hwf (by simpa [tableWords] using hlen) h)

theorem readByte_storeSamples {a : Nat} (hlen : samples.length ≤ 2 ^ 25) (ha : a / 2 ^ 28 ≠ 5) :
    readByte (storeSamples samples n rng s) a = readByte s a :=
  (readByte_congr rfl rfl a).trans
    (readByte_storeElems_region (t := .smp) (vs := sampleWords samples) s (by simpa using hlen) ha)

theorem readByte_writeOut {a : Nat} (hlen : bytes.length ≤ 2 ^ 25) (ha : a / 2 ^ 28 ≠ 6) :
    readByte (writeOut bytes s) a = readByte s a :=
  (readByte_congr rfl rfl a).trans
    (readByte_storeElems_region (t := .out) (vs := outWords bytes) s (by simpa using hlen) ha)

theorem readByte_storeOnsets {a : Nat} (hkicks : kicks.length ≤ 2 ^ 25) (hsnares : snares.length ≤ 2 ^ 25)
    (hhats : hats.length ≤ 2 ^ 25) (ha : a / 2 ^ 28 < 7 ∨ 9 < a / 2 ^ 28) :
    readByte (storeOnsets kicks snares hats s) a = readByte s a := by
  have hK : a / 2 ^ 28 ≠ tableRegion .onsK := by simp only [tableRegion]; omega
  have hS : a / 2 ^ 28 ≠ tableRegion .onsS := by simp only [tableRegion]; omega
  have hH : a / 2 ^ 28 ≠ tableRegion .onsH := by simp only [tableRegion]; omega
  calc readByte (storeOnsets kicks snares hats s) a
      = readByte (storeElems .onsH 0 hats (storeElems .onsS 0 snares (storeElems .onsK 0 kicks s))) a :=
        readByte_congr rfl rfl a
    _ = readByte s a := by
        rw [readByte_storeElems_region _ hhats hH, readByte_storeElems_region _ hsnares hS,
          readByte_storeElems_region _ hkicks hK]

end Stores

/-! ### A command from its acceptance to its end -/

/-- The two ends of a command: its effect after a validation that passes, or the fault of its first failing check. -/
theorem exec_cases {i : Instr} {s t : State} (h : exec i s = .next t) :
    (commandCheck i s = none ∧ t = finish (commandEffect i s)) ∨
      ∃ f, commandCheck i s = some f ∧ t = raiseFault f s := by
  rw [exec_eq] at h
  obtain ⟨hcheck, hend⟩ | ⟨f, hcheck, hend⟩ := runCommand_cases (commandCheck i s) (commandEffect i) s
  · rw [hend] at h; cases h; exact .inl ⟨hcheck, rfl⟩
  · rw [hend] at h; cases h; exact .inr ⟨f, hcheck, rfl⟩

/-- The effect of a command is one of the stores, of the samples, onset times and bytes it computes, or changes no
more than RESULT and RNG (R52). -/
theorem commandEffect_cases (i : Instr) (s : State) :
    (i = .tone ∧ commandEffect i s = storeSamples (toneSamples s) (BitVec.ofNat 32 (toneTotal s)) s.rng s) ∨
    (i = .seq ∧ commandEffect i s =
      storeSamples (seqRun s).1 (BitVec.ofNat 32 (seqTotal s)) (seqRun s).2
        (storeOnsets (onsets s 0) (onsets s 1) (onsets s 2) s)) ∨
    (i = .pcmw ∧ commandEffect i s = writeOut (wavBytes s) s) ∨
    (i = .pnge ∧ commandEffect i s = writeOut (pngBytes s) s) ∨
    (i ∉ [Instr.tone, .seq, .pcmw, .pnge] ∧
      ∃ result rng, commandEffect i s = { s with result := result, rng := rng }) := by
  cases i with
  | tone => exact .inl ⟨rfl, toneEffect_eq s⟩
  | seq => exact .inr (.inl ⟨rfl, seqEffect_eq s⟩)
  | pcmw => exact .inr (.inr (.inl ⟨rfl, rfl⟩))
  | pnge => exact .inr (.inr (.inr (.inl ⟨rfl, rfl⟩)))
  | env | kick | seed => exact .inr (.inr (.inr (.inr ⟨by decide, _, _, rfl⟩)))
  | snare | hat =>
    refine .inr (.inr (.inr (.inr ⟨by decide, ?_⟩)))
    simp only [commandEffect, snareEffect, hatEffect]
    split <;> exact ⟨_, _, rfl⟩

/-- The effect of a command lies in the results of commands (R52). -/
theorem resultsOnly_commandEffect (i : Instr) (s : State) : resultsOnly s (commandEffect i s) := by
  obtain ⟨-, he⟩ | ⟨-, he⟩ | ⟨-, he⟩ | ⟨-, he⟩ | ⟨-, result, rng, he⟩ := commandEffect_cases i s
  · rw [he]; exact resultsOnly_storeSamples _ _ _ _
  · rw [he]
    exact resultsOnly_trans (resultsOnly_storeOnsets _ _ _ _) (resultsOnly_storeSamples _ _ _ _)
  · rw [he]; exact resultsOnly_writeOut _ _
  · rw [he]; exact resultsOnly_writeOut _ _
  · rw [he]; rfl

theorem commandEffect_result {i : Instr} (s : State) (hi : i ∉ [Instr.env, .kick, .snare, .hat]) :
    (commandEffect i s).result = s.result := by
  cases i with
  | env | kick | snare | hat => simp at hi
  | tone => simp [commandEffect, toneEffect_eq]
  | seq => simp [commandEffect, seqEffect_eq]
  | pcmw | pnge => exact writeOut_result _ _
  | seed => rfl

theorem commandEffect_rng {i : Instr} (s : State) (hi : i ∉ [Instr.snare, .hat, .seq, .seed]) :
    (commandEffect i s).rng = s.rng := by
  cases i with
  | snare | hat | seq | seed => simp at hi
  | tone => simp [commandEffect, toneEffect_eq]
  | pcmw | pnge => exact writeOut_rng _ _
  | env | kick => rfl

theorem commandEffect_smpLen {i : Instr} (s : State) (hi : i ∉ [Instr.tone, .seq]) :
    (commandEffect i s).smpLen = s.smpLen := by
  obtain ⟨rfl, -⟩ | ⟨rfl, -⟩ | ⟨-, he⟩ | ⟨-, he⟩ | ⟨-, result, rng, he⟩ := commandEffect_cases i s
  · simp at hi
  · simp at hi
  · rw [he, writeOut_smpLen]
  · rw [he, writeOut_smpLen]
  · rw [he]

theorem commandEffect_outLen {i : Instr} (s : State) (hi : i ∉ [Instr.pcmw, .pnge]) :
    (commandEffect i s).outLen = s.outLen := by
  obtain ⟨-, he⟩ | ⟨-, he⟩ | ⟨rfl, -⟩ | ⟨rfl, -⟩ | ⟨-, result, rng, he⟩ := commandEffect_cases i s
  · rw [he, storeSamples_outLen]
  · rw [he, storeSamples_outLen, storeOnsets_outLen]
  · simp at hi
  · simp at hi
  · rw [he]

theorem commandEffect_counts {i : Instr} (s : State) (hi : i ≠ .seq) :
    (commandEffect i s).nK = s.nK ∧ (commandEffect i s).nS = s.nS ∧ (commandEffect i s).nH = s.nH := by
  obtain ⟨-, he⟩ | ⟨rfl, -⟩ | ⟨-, he⟩ | ⟨-, he⟩ | ⟨-, result, rng, he⟩ := commandEffect_cases i s
  · rw [he, storeSamples_nK, storeSamples_nS, storeSamples_nH]; exact ⟨rfl, rfl, rfl⟩
  · exact absurd rfl hi
  · rw [he, writeOut_nK, writeOut_nS, writeOut_nH]; exact ⟨rfl, rfl, rfl⟩
  · rw [he, writeOut_nK, writeOut_nS, writeOut_nH]; exact ⟨rfl, rfl, rfl⟩
  · rw [he]; exact ⟨rfl, rfl, rfl⟩

/-- The bytes a command may change are those of the regions R52 names for it. -/
theorem readByte_commandEffect {i : Instr} {s : State} (hwf : s.build.caps.wf = true)
    (hcheck : commandCheck i s = none) (a : Nat) :
    readByte (commandEffect i s) a = readByte s a ∨
      (i ∈ [Instr.tone, .seq] ∧ a / 2 ^ 28 = 5) ∨ (i ∈ [Instr.pcmw, .pnge] ∧ a / 2 ^ 28 = 6) ∨
      (i = .seq ∧ 7 ≤ a / 2 ^ 28 ∧ a / 2 ^ 28 ≤ 9) := by
  have hsmp : s.build.caps.maxSamples ≤ 2 ^ 25 := tableWords_le hwf .smp
  have hout : s.build.caps.maxOut ≤ 2 ^ 25 := tableWords_le hwf .out
  have hons : s.build.caps.maxOnsets ≤ 2 ^ 25 := tableWords_le hwf .onsK
  refine or_iff_not_imp_right.2 fun ha => ?_
  obtain ⟨rfl, he⟩ | ⟨rfl, he⟩ | ⟨rfl, he⟩ | ⟨rfl, he⟩ | ⟨-, result, rng, he⟩ := commandEffect_cases i s
  · have hlen := toneTotal_le hcheck
    rw [he, readByte_storeSamples _ _ (by rw [toneSamples_length]; omega) (by simpa using ha)]
  · have hlen := seqTotal_le hcheck
    obtain ⟨hK, hS, hH⟩ := hitCount_le hcheck
    obtain ⟨ha5, ha79⟩ : a / 2 ^ 28 ≠ 5 ∧ (7 ≤ a / 2 ^ 28 → 9 < a / 2 ^ 28) := by simpa using ha
    rw [he, readByte_storeSamples _ _ (by rw [seqRun_length]; omega) ha5,
      readByte_storeOnsets (by rw [onsets_length]; omega) (by rw [onsets_length]; omega)
        (by rw [onsets_length]; omega) (by omega)]
  · have hlen := wavLength_le hcheck
    rw [he, readByte_writeOut (by rw [wavBytes_length]; omega) (by simpa using ha)]
  · rw [he, readByte_writeOut ((pngLength_le hcheck).trans hout) (by simpa using ha)]
  · rw [he]
    exact readByte_congr rfl rfl a

theorem sameOperands_of_resultsOnly {s t : State} (h : resultsOnly s t) : sameOperands s t := by
  rw [resultsOnly] at h
  rw [h]
  simp [sameOperands]

/-- The end of a command writes the flags, no operand (R252). -/
theorem sameOperands_finish {s t : State} : sameOperands s (finish t) ↔ sameOperands s t := Iff.rfl

/-- Settles O51: a fault writes only its record, and the effect of a command only its results, field by field. -/
theorem commandsWriteOnlyTheirResults : Obligations.CommandsWriteOnlyTheirResults := by
  intro i s t hwf h
  obtain ⟨hcheck, rfl⟩ | ⟨f, -, rfl⟩ := exec_cases h
  · have hoperands := sameOperands_of_resultsOnly (resultsOnly_commandEffect i s)
    refine ⟨sameOperands_finish.2 hoperands, commandEffect_result s, commandEffect_rng s, commandEffect_smpLen s,
      commandEffect_outLen s, commandEffect_counts s, fun a => ?_⟩
    rw [readByte_congr (finish_mem _) (finish_resets _)]
    exact readByte_commandEffect hwf hcheck a
  · simp [sameOperands, readByte_congr (raiseFault_mem f s) (raiseFault_resets f s)]

/-! ### Legal states -/

theorem legal_iff (s : State) :
    legal s = true ↔
      s.build.caps.wf = true ∧ tablesOk s = true ∧ statusOk s = true ∧ lengthsOk s = true := by
  simp [legal, and_assoc]

theorem lengthsOk_iff (s : State) :
    lengthsOk s = true ↔
      s.outLen.toNat ≤ s.build.caps.maxOut ∧ s.nK.toNat ≤ s.build.caps.maxOnsets ∧
        s.nS.toNat ≤ s.build.caps.maxOnsets ∧ s.nH.toNat ≤ s.build.caps.maxOnsets := by
  simp [lengthsOk, and_assoc]

/-- A number within a capacity stays within it when a u32 register holds it. -/
theorem toNat_ofNat_le {n cap : Nat} (h : n ≤ cap) : (BitVec.ofNat 32 n).toNat ≤ cap := by
  rw [BitVec.toNat_ofNat]
  exact (Nat.mod_le _ _).trans h

theorem tablesOk_commandEffect {i : Instr} {s : State} (hwf : s.build.caps.wf = true)
    (hcheck : commandCheck i s = none) (h : tablesOk s = true) : tablesOk (commandEffect i s) = true := by
  obtain ⟨rfl, he⟩ | ⟨rfl, he⟩ | ⟨rfl, he⟩ | ⟨rfl, he⟩ | ⟨-, result, rng, he⟩ := commandEffect_cases i s
  · rw [he]
    exact tablesOk_storeSamples _ _ hwf (by simpa using toneTotal_le hcheck) h
  · obtain ⟨hK, hS, hH⟩ := hitCount_le hcheck
    have honsets : tablesOk (storeOnsets (onsets s 0) (onsets s 1) (onsets s 2) s) = true :=
      tablesOk_storeOnsets hwf (by simpa using hK) (by simpa using hS) (by simpa using hH) h
    rw [he]
    exact tablesOk_storeSamples _ _ (by simpa using hwf) (by simpa using seqTotal_le hcheck) honsets
  · rw [he]
    exact tablesOk_writeOut hwf (by simpa using wavLength_le hcheck) h
  · rw [he]
    exact tablesOk_writeOut hwf (pngLength_le hcheck) h
  · rw [he, ← h]
    exact tablesOk_congr rfl rfl

theorem outLen_commandEffect_le {i : Instr} {s : State} (hcheck : commandCheck i s = none)
    (h : s.outLen.toNat ≤ s.build.caps.maxOut) : (commandEffect i s).outLen.toNat ≤ s.build.caps.maxOut := by
  cases i with
  | pcmw => exact toNat_ofNat_le (by simpa using wavLength_le hcheck)
  | pnge => exact toNat_ofNat_le (pngLength_le hcheck)
  | _ => rwa [commandEffect_outLen s (by decide)]

theorem counts_commandEffect_le {i : Instr} {s : State} (hcheck : commandCheck i s = none)
    (h : s.nK.toNat ≤ s.build.caps.maxOnsets ∧ s.nS.toNat ≤ s.build.caps.maxOnsets ∧
      s.nH.toNat ≤ s.build.caps.maxOnsets) :
    (commandEffect i s).nK.toNat ≤ s.build.caps.maxOnsets ∧ (commandEffect i s).nS.toNat ≤ s.build.caps.maxOnsets ∧
      (commandEffect i s).nH.toNat ≤ s.build.caps.maxOnsets := by
  by_cases hi : i = .seq
  · subst hi
    obtain ⟨hK, hS, hH⟩ := hitCount_le hcheck
    simp only [commandEffect, seqEffect_eq, storeSamples_nK, storeSamples_nS, storeSamples_nH, storeOnsets_nK,
      storeOnsets_nS, storeOnsets_nH, onsets_length]
    exact ⟨toNat_ofNat_le hK, toNat_ofNat_le hS, toNat_ofNat_le hH⟩
  · obtain ⟨hK, hS, hH⟩ := commandEffect_counts s hi
    rwa [hK, hS, hH]

theorem lengthsOk_commandEffect {i : Instr} {s : State} (hcheck : commandCheck i s = none)
    (h : lengthsOk s = true) : lengthsOk (commandEffect i s) = true := by
  obtain ⟨hbuild, -⟩ := commandEffect_outside i s
  obtain ⟨hout, hcounts⟩ := (lengthsOk_iff s).1 h
  rw [lengthsOk_iff, hbuild]
  exact ⟨outLen_commandEffect_le hcheck hout, counts_commandEffect_le hcheck hcounts⟩

/-- A command accepted in a legal state ends in a legal state, in success or in a fault. -/
theorem legal_exec {i : Instr} {d : Word} {s t : State} (h : legal s = true) (hbusy : s.running = some d)
    (hexec : exec i s = .next t) : legal t = true := by
  obtain ⟨hwf, htables, hstatus, hlengths⟩ := (legal_iff s).1 h
  obtain ⟨hcheck, rfl⟩ | ⟨f, hcheck, rfl⟩ := exec_cases hexec
  · obtain ⟨hbuild, -⟩ := commandEffect_outside i s
    obtain ⟨-, hfault, hcode, hinfo⟩ := statusOk_busy hstatus hbusy
    have hflags := resultsOnly_commandEffect i s
    refine (legal_iff _).2 ⟨by simpa [hbuild] using hwf, ?_, ?_, lengthsOk_commandEffect hcheck hlengths⟩
    · exact (tablesOk_congr rfl rfl).trans (tablesOk_commandEffect hwf hcheck htables)
    · rw [hflags]
      exact statusOk_finish hfault hcode hinfo
  · obtain ⟨hlow, hhigh⟩ := commandCheck_code hcheck
    exact (legal_iff _).2 ⟨hwf, htables, statusOk_raiseFault s (by omega) hhigh, hlengths⟩

theorem legal_writeReg (r : Reg) (d : Word) (s : State) : legal (writeReg r d s) = legal s := by
  cases r <;> rfl

theorem legal_writeStatus {s : State} (d : Word) (h : legal s = true) : legal (writeStatus d s) = true := by
  obtain ⟨hwf, htables, hstatus, hlengths⟩ := (legal_iff s).1 h
  refine (legal_iff _).2 ⟨?_, ?_, statusOk_writeStatus d hstatus, ?_⟩
  all_goals unfold writeStatus; split <;> assumption

/-- A write the block takes leads from a legal state to a legal state (R72). -/
theorem legal_busWrite {a : Addr} {d : Word} {s t : State} (h : legal s = true) (hw : busWrite a d s = some t) :
    legal t = true := by
  obtain ⟨hwf, htables, hstatus, hlengths⟩ := (legal_iff s).1 h
  obtain ⟨-, ⟨r, -, hreg⟩ | ⟨tb, w, hloc, -, rfl⟩⟩ := busWrite_cases hw
  · obtain ⟨-, hfault, rfl⟩ | ⟨-, rfl⟩ | ⟨-, rfl⟩ := busWriteReg_cases hreg
    · exact (legal_iff _).2 ⟨hwf, htables, statusOk_accept d hstatus hfault, hlengths⟩
    · exact legal_writeStatus d h
    · rwa [legal_writeReg]
  · rw [storeElem_eq]
    have hstored := tablesOk_storeElem d hwf (locate_elem_lt hloc) htables
    rw [storeElem_eq] at hstored
    exact (legal_iff _).2 ⟨hwf, hstored, hstatus, hlengths⟩

/-- A reset leads to a legal state (R280): no table element is written, every flag and count is 0. -/
theorem legal_resetBlock {s : State} (hwf : s.build.caps.wf = true) : legal (resetBlock s) = true :=
  (legal_iff _).2 ⟨hwf, rfl, rfl, by simp [lengthsOk, resetBlock, State.reset]⟩

theorem legal_hostEvent (e : HostEvent) {s : State} (h : legal s = true) : legal (hostEvent e s) = true := by
  cases e with
  | read a => exact h
  | write a d =>
    cases hw : busWrite a d s with
    | none => rw [hostEvent_write_refused hw]; exact h
    | some t =>
      have htaken : legal t = true := legal_busWrite h hw
      rw [hostEvent_write_ok hw]
      exact htaken
  | reset => exact legal_resetBlock ((legal_iff s).1 h).1

/-- The block runs a command only while one is in progress (R250). -/
theorem running_of_nextMove_command {s : State} {d : Word} (h : nextMove s = .command d) : s.running = some d := by
  unfold nextMove at h
  split at h
  · next hrun _ =>
    split at h
    · cases h
    · cases h; exact hrun
  · next hrun _ => cases h; exact hrun
  · cases h
  · cases h

/-- Settles O50, by the four kinds of step: a move of the host, a command run to its end, the fault of an illegal
command word, and no move. -/
theorem stepKeepsLegal : Obligations.StepKeepsLegal := by
  intro s t h hstep
  obtain ⟨e, rest, -, rfl⟩ | ⟨d, i, hmove, -, hexec⟩ | ⟨d, x, -, -, rfl⟩ | ⟨-, rfl⟩ := step_cases hstep
  · exact legal_hostEvent e (s := { s with inputs := rest }) h
  · exact legal_exec h (running_of_nextMove_command hmove) hexec
  · obtain ⟨hwf, htables, -, hlengths⟩ := (legal_iff s).1 h
    exact (legal_iff _).2 ⟨hwf, htables, statusOk_raiseFault s (by simp [illegalCmd]) (by simp [illegalCmd]), hlengths⟩
  · exact h

/-- Settles O49: the reference capacities are within R5, and nothing is written, set or counted yet. -/
theorem resetIsLegal : Obligations.ResetIsLegal :=
  (legal_iff _).2 ⟨by decide, rfl, rfl, by decide⟩

/-! ### The range of a produced sample (R47)

`quant` clamps, so its result is in range for every operand, also for an infinity or a NaN, which no command
reaches (R121): the rounded product of a clamped number and 32767.0 is at most 32767.0. -/

/-- The range R47 gives a produced sample: -32768 is not in it. -/
def sampleInRange (v : BitVec 16) : Prop := -32767 ≤ v.toInt ∧ v.toInt ≤ 32767

theorem sampleInRange_zero : sampleInRange 0 := by simp [sampleInRange]

theorem oneUnits_pos : 0 < oneUnits := by unfold oneUnits; positivity

theorem magUnits_f1 : magUnits (fMag f1) = oneUnits := by decide +kernel

theorem magUnits_f32767 : magUnits (fMag f32767) = 32767 * oneUnits := by decide +kernel

theorem natAbs_fUnits (x : F64) : (fUnits x).natAbs = magUnits (fMag x) := by
  unfold fUnits
  split <;> simp

theorem fClamp_of_nan {x : F64} (lo hi : F64) (h : fIsNaN x = true) : fClamp x lo hi = x := by
  simp [fClamp, fLt, h]

/-- What is no NaN is brought to a magnitude of at most 1.0 (R124). -/
theorem fClamp_unit {x : F64} (h : fIsNaN x = false) :
    fIsNaN (fClamp x fm1 f1) = false ∧ magUnits (fMag (fClamp x fm1 f1)) ≤ oneUnits := by
  have hlow : fUnits fm1 = -(oneUnits : Int) := by decide +kernel
  have hhigh : fUnits f1 = (oneUnits : Int) := by decide +kernel
  have hnlow : fIsNaN fm1 = false := by decide
  have hnhigh : fIsNaN f1 = false := by decide
  simp only [← natAbs_fUnits, fClamp, fLt, h, hnlow, hnhigh, hlow, hhigh, Bool.not_false, Bool.true_and,
    decide_eq_true_eq]
  split
  · exact ⟨hnlow, by rw [hlow]; omega⟩
  · split
    · exact ⟨hnhigh, by rw [hhigh]; omega⟩
    · exact ⟨h, by omega⟩

/-- The rounded product of a number of magnitude at most 1.0 and 32767.0 is of magnitude at most 32767.0. -/
theorem fMul_f32767_le {c : F64} (hnan : fIsNaN c = false) (h : magUnits (fMag c) ≤ oneUnits) :
    magUnits (fMag (fMul c f32767)) ≤ 32767 * oneUnits := by
  have hmag : fMag c ≤ fMag f1 := by rwa [← magUnits_le_iff, magUnits_f1]
  have hone : fMag f1 < infMag := by decide
  have hinf : fIsInf c = false := by simp only [fIsInf, decide_eq_false_iff_not]; omega
  have hnan' : fIsNaN f32767 = false := by decide
  have hinf' : fIsInf f32767 = false := by decide
  have hpos := oneUnits_pos
  have hle : magUnits (fMag c) * magUnits (fMag f32767) ≤ magUnits (fMag f32767) * oneUnits :=
    (Nat.mul_comm _ _).trans_le (Nat.mul_le_mul_left _ h)
  have hexact : roundMag (magUnits (fMag f32767) * oneUnits) oneUnits = fMag f32767 :=
    roundMag_exact (by decide) hpos
  have hround : roundMag (magUnits (fMag c) * magUnits (fMag f32767)) oneUnits ≤ fMag f32767 := by
    calc roundMag (magUnits (fMag c) * magUnits (fMag f32767)) oneUnits
        ≤ roundMag (magUnits (fMag f32767) * oneUnits) oneUnits :=
          roundMag_mono hpos hpos (Nat.mul_le_mul_right _ hle)
      _ = fMag f32767 := hexact
  have hmul : fMul c f32767 =
      fRound (fSign c != fSign f32767) (magUnits (fMag c) * magUnits (fMag f32767)) oneUnits := by
    simp [fMul, hnan, hinf, hnan', hinf']
  rw [hmul, fMag_fRound, ← magUnits_f32767]
  exact magUnits_le_iff.2 hround

theorem natAbs_fTrunc_le {y : F64} (h : magUnits (fMag y) ≤ 32767 * oneUnits) : (fTrunc y).natAbs ≤ 32767 := by
  have hpos := oneUnits_pos
  rw [fTrunc, Int.natAbs_tdiv, natAbs_fUnits, Int.natAbs_natCast]
  exact Nat.div_le_of_le_mul (by rwa [Nat.mul_comm])

theorem sampleInRange_ofInt {q : Int} (h : q.natAbs ≤ 32767) : sampleInRange (BitVec.ofInt 16 q) := by
  have hq : (BitVec.ofInt 16 q).toInt = q := by
    rw [BitVec.toInt_ofInt]
    exact Int.bmod_eq_of_le (by omega) (by omega)
  unfold sampleInRange
  omega

/-- What `quant` gives is in range, whatever its operand (R125). -/
theorem sampleInRange_quant (x : F64) : sampleInRange (quant x) := by
  cases hnan : fIsNaN x with
  | true =>
    have hmul : fMul x f32767 = fNaN := by simp [fMul, hnan]
    have hzero : BitVec.ofInt 16 (fTrunc fNaN) = 0 := by decide +kernel
    rw [quant, quantInt, fClamp_of_nan _ _ hnan, hmul, hzero]
    exact sampleInRange_zero
  | false =>
    obtain ⟨hnan', hunit⟩ := fClamp_unit hnan
    exact sampleInRange_ofInt (natAbs_fTrunc_le (fMul_f32767_le hnan' hunit))

theorem toneSample_inRange (sin : F64 → F64) (f dur sr : F64) (i : Nat) :
    sampleInRange (toneSample sin f dur sr i) := by
  unfold toneSample
  split
  · exact sampleInRange_zero
  · exact sampleInRange_quant _

theorem toneSamples_inRange (s : State) : ∀ v ∈ toneSamples s, sampleInRange v := by
  intro v hv
  simp only [toneSamples, noteSamples, List.mem_flatMap, List.mem_map] at hv
  obtain ⟨k, -, i, -, rfl⟩ := hv
  exact toneSample_inRange _ _ _ _ _

theorem seqRender_inRange (s : State) (i n : Nat) (rng : NoiseState) :
    ∀ v ∈ (seqRender s i n rng).1, sampleInRange v := by
  induction n generalizing i rng with
  | zero => simp [seqRender]
  | succ n ih =>
    simp only [seqRender, List.forall_mem_cons]
    exact ⟨sampleInRange_quant _, ih _ _⟩

/-- The samples stored from the start of SMP on are read back there (R45). -/
theorem sampleAt_storeSamples {samples : List (BitVec 16)} (n : U32) (rng : NoiseState) (s : State) {j : Nat}
    (hj : j < samples.length) : sampleAt (storeSamples samples n rng s) j = samples[j] := by
  have hword := loadElem_storeElems_same .smp 0 (sampleWords samples) s (j := j) (by simpa using hj)
  have hstored : loadElem (storeSamples samples n rng s) .smp j =
      loadElem (storeElems .smp 0 (sampleWords samples) s) .smp (0 + j) := by
    rw [Nat.zero_add]; exact loadElem_congr rfl rfl .smp j
  rw [sampleAt, hstored, hword]
  apply BitVec.eq_of_toNat_eq
  simpa [sampleWords, tableBits] using samples[j].isLt

/-- Samples in range stay so in SMP, for as many as SMP_LEN counts. -/
theorem sampleAt_storeSamples_inRange {samples : List (BitVec 16)} {total : Nat} (rng : NoiseState) (s : State)
    (hlen : samples.length = total) (hrange : ∀ v ∈ samples, sampleInRange v) {j : Nat}
    (hj : j < (BitVec.ofNat 32 total).toNat) :
    sampleInRange (sampleAt (storeSamples samples (BitVec.ofNat 32 total) rng s) j) := by
  have hj' : j < samples.length := by
    rw [hlen]; exact Nat.lt_of_lt_of_le hj (toNat_ofNat_le le_rfl)
  rw [sampleAt_storeSamples _ _ _ hj']
  exact hrange _ (List.getElem_mem hj')

theorem sampleAt_commandEffect_inRange {i : Instr} {s : State} {j : Nat} (hi : i = .tone ∨ i = .seq)
    (hj : j < (commandEffect i s).smpLen.toNat) : sampleInRange (sampleAt (commandEffect i s) j) := by
  obtain rfl | rfl := hi
  · rw [commandEffect, toneEffect_eq] at hj ⊢
    rw [storeSamples_smpLen] at hj
    exact sampleAt_storeSamples_inRange _ _ (toneSamples_length s) (toneSamples_inRange s) hj
  · rw [commandEffect, seqEffect_eq] at hj ⊢
    rw [storeSamples_smpLen] at hj
    exact sampleAt_storeSamples_inRange _ _ (seqRun_length s) (seqRender_inRange s _ _ _) hj

/-- Settles O40: both producers store what `quant` gives, or the 0 of a rest. -/
theorem producedSamplesInRange : Obligations.ProducedSamplesInRange := by
  intro i s t _ hi hexec hdone j hj
  obtain ⟨-, rfl⟩ | ⟨f, -, rfl⟩ := exec_cases hexec
  · have hsample : sampleAt (finish (commandEffect i s)) j = sampleAt (commandEffect i s) j :=
      congrArg (BitVec.setWidth 16) (loadElem_congr (finish_mem _) (finish_resets _) .smp j)
    rw [hsample]
    exact sampleAt_commandEffect_inRange hi hj
  · simp at hdone

end Sys2Proof.Machine

/-! PROOFS. The host interface (`20_memory.md`): what stands at an address and what does not, which transactions are
answered and which refused, in an idle block, while BUSY and while FAULT. -/

namespace Sys2Proof.Machine

/-! ### What stands at an address (R73): the converse of `locate_regOffset` and `locate_wordAddr` -/

theorem regOffset_of_regAt {w : Nat} {r : Reg} (h : regAt w = some r) : regOffset r = 8 * w := by
  unfold regAt at h
  split at h <;> cases h <;> rfl

theorem tableRegion_of_tableAt {n : Nat} {t : Table} (h : tableAt n = some t) : tableRegion t = n := by
  unfold tableAt at h
  split at h <;> cases h <;> rfl

/-- Only the offset of a register and the address of an existing table word have something at them (R73 to R75). -/
theorem locate_cases {c : Caps} {a : Addr} {l : Location} (h : locate c a = some l) :
    (∃ r, a.toNat = regOffset r ∧ l = .reg r) ∨
    (∃ t w, a.toNat = wordAddr t w ∧ w < 2 ^ 25 ∧ w < tableWords c t ∧ l = .elem t w) := by
  unfold locate at h
  split at h
  case isFalse => cases h
  case isTrue haligned =>
    rw [addrAligned_iff] at haligned
    rw [addrRegion_eq, addrWord_eq] at h
    split at h
    case isTrue hregion =>
      obtain ⟨r, hr, rfl⟩ := Option.map_eq_some_iff.1 h
      have hoffset := regOffset_of_regAt hr
      exact .inl ⟨r, by omega, rfl⟩
    case isFalse =>
      split at h
      case h_2 => cases h
      case h_1 t ht =>
        split at h
        case isFalse => cases h
        case isTrue hw =>
          cases h
          have hregion := tableRegion_of_tableAt ht
          exact .inr ⟨t, _, by unfold wordAddr; omega, by omega, hw, rfl⟩

/-- The fields of the address of a table word (R73). -/
theorem wordAddr_fields {t : Table} {w : Nat} (h : w < 2 ^ 25) :
    wordAddr t w / 2 ^ 28 = tableRegion t ∧ wordAddr t w % 2 ^ 28 / 8 = w ∧ wordAddr t w % 8 = 0 := by
  unfold wordAddr; omega

theorem regOffset_bounds (r : Reg) : regOffset r % 8 = 0 ∧ regOffset r < 0x0C0 := by cases r <;> decide

theorem tableRegion_injective {t u : Table} (h : tableRegion t = tableRegion u) : t = u :=
  Option.some.inj (by rw [← tableAt_tableRegion t, h, tableAt_tableRegion])

/-- Nothing stands at a misaligned address, in regions 0xA to 0xF, past the last register, or at a word index that
the table of the region does not reach (R74, R75). -/
theorem locate_eq_none {c : Caps} {a : Addr}
    (h : a.toNat % 8 ≠ 0 ∨ 10 ≤ a.toNat / 2 ^ 28 ∨ (a.toNat < 2 ^ 28 ∧ 0x0C0 ≤ a.toNat) ∨
      ∃ tb, a.toNat / 2 ^ 28 = tableRegion tb ∧ tableWords c tb ≤ a.toNat % 2 ^ 28 / 8) :
    locate c a = none := by
  refine Option.eq_none_iff_forall_ne_some.2 fun l hl => ?_
  obtain ⟨r, ha, -⟩ | ⟨t, w, ha, hw25, hw, -⟩ := locate_cases hl
  · have hr := regOffset_bounds r
    obtain hbad | hbad | hbad | ⟨tb, hregion, -⟩ := h
    · omega
    · omega
    · omega
    · have htb := tableRegion_bounds tb
      omega
  · have ht := tableRegion_bounds t
    obtain ⟨hregion, hword, halign⟩ := wordAddr_fields (t := t) hw25
    rw [← ha] at hregion hword halign
    obtain hbad | hbad | hbad | ⟨tb, htb, hbeyond⟩ := h
    · omega
    · omega
    · omega
    · obtain rfl := tableRegion_injective (htb.symm.trans hregion)
      omega

/-! ### Moves of the host (R70) -/

/-- Settles O5: an idle block leaves the move to the host, a BUSY one when it comes before the end. -/
theorem hostMoveIsOneStep : Obligations.HostMoveIsOneStep := by
  intro s e b rest hin hturn
  have hmove : nextMove s = .host e rest := by
    obtain hidle | rfl := hturn
    · exact nextMove_idle_host hidle hin
    · exact nextMove_busy_host rfl hin
  simp [step, hmove]

/-! ### Reads of an idle block (R21, R39, R71) -/

theorem loadBytes_eq_leValue (s : State) (a n : Nat) :
    loadBytes s a n = leValue ((List.range n).map fun j => readByte s (a + j)) := by
  induction n generalizing a with
  | zero => rfl
  | succ n ih =>
    have hshift : ((fun j => readByte s (a + j)) ∘ Nat.succ) = fun j => readByte s (a + 1 + j) := by
      funext j
      exact congrArg (readByte s) (by omega)
    rw [loadBytes, ih, List.range_succ_eq_map, List.map_cons, List.map_map, hshift, leValue]
    rfl

theorem tableBytes_eq (t : Table) : tableBytes t = (tableBits t + 7) / 8 := by cases t <;> rfl

/-- The value of an element, of as many bytes as its width needs (R39; log 9). -/
theorem toNat_loadElem (s : State) (t : Table) (w : Nat) :
    (loadElem s t w).toNat =
      leValue ((List.range ((tableBits t + 7) / 8)).map fun j => readByte s (wordAddr t w + j)) %
        2 ^ tableBits t := by
  have hfits : 2 ^ tableBits t ≤ 2 ^ 64 := Nat.pow_le_pow_right (by decide) (tableBits_le_64 t)
  have hlt := Nat.lt_of_lt_of_le (Nat.mod_lt (loadBytes s (wordAddr t w) (tableBytes t)) (Nat.two_pow_pos _)) hfits
  rw [loadElem, BitVec.toNat_ofNat, Nat.mod_eq_of_lt hlt, loadBytes_eq_leValue, tableBytes_eq]

/-- The registers, in the order of their offsets (R21). -/
def regOrder : List Reg :=
  [.cmd, .status, .finfo, .result, .tIn, .envA, .envD, .envS, .envR, .envT, .bpm, .srate, .loops, .phraseLen,
    .drumLen, .pixW, .pixH, .pixLen, .smpLen, .outLen, .nK, .nS, .nH, .id]

/-- The tables, in the order of their regions (R73). -/
def tableOrder : List Table := [.mel, .bass, .drum, .pix, .smp, .out, .onsK, .onsS, .onsH]

/-- Settles O13. The two lists of the statement are the map of the model, so that the rules for one register and for
one table word answer every entry of them. -/
theorem readsAnswerTheLocation : Obligations.ReadsAnswerTheLocation := by
  intro s hidle
  constructor
  · intro offset v hentry
    obtain ⟨r, -, hr⟩ := List.mem_map.1
      (show (offset, v) ∈ regOrder.map fun r => (BitVec.ofNat 32 (regOffset r), readReg s r) from hentry)
    obtain ⟨rfl, rfl⟩ := Prod.mk.inj hr
    rw [hostEvent_read, busRead_regOffset r hidle]
  · intro tb base bits cap w hwf hentry hw
    obtain ⟨t, -, ht⟩ : ∃ t ∈ tableOrder,
        (t, tableRegion t * 2 ^ 28, tableBits t, tableWords s.build.caps t) = (tb, base, bits, cap) := by
      rw [← List.mem_map]
      simpa [tableOrder, tableRegion, tableBits, tableWords] using hentry
    obtain ⟨rfl, rfl, rfl, rfl⟩ := by simpa only [Prod.mk.injEq] using ht
    rw [← wordAddr, hostEvent_read, busRead_wordAddr hwf hidle hw]
    exact ⟨rfl, toNat_loadElem s t w⟩

/-! ### Refusals (R74 to R77) -/

theorem busRead_of_locate_none {s : State} {a : Addr} (h : locate s.build.caps a = none) : busRead s a = .err := by
  simp [busRead, h]

theorem busWrite_of_locate_none {s : State} {a : Addr} (d : Word) (h : locate s.build.caps a = none) :
    busWrite a d s = none := by
  simp [busWrite, h]

theorem busWrite_of_busy {s : State} (a : Addr) (d : Word) (h : busy s = true) : busWrite a d s = none := by
  simp [busWrite, h]

theorem busWrite_of_locate_reg {s : State} {a : Addr} {r : Reg} (d : Word) (hidle : busy s = false)
    (h : locate s.build.caps a = some (.reg r)) : busWrite a d s = busWriteReg r d s := by
  simp [busWrite, hidle, h]

theorem busWrite_of_locate_elem {s : State} {a : Addr} {t : Table} {w : Nat} (d : Word) (hidle : busy s = false)
    (h : locate s.build.caps a = some (.elem t w)) :
    busWrite a d s = if tableHostWrites t then some (storeElem t w d s) else none := by
  simp [busWrite, hidle, h]

/-- A write to a read-only register is refused, the block idle or BUSY (R75, R76). -/
theorem busWrite_readOnly {s : State} {r : Reg} (d : Word) (h : regAccess r = .readOnly) :
    busWrite (BitVec.ofNat 32 (regOffset r)) d s = none := by
  simp [busWrite, busWriteReg, h]

theorem tableHostWrites_eq_false {t : Table} (h : 6 ≤ tableRegion t) : tableHostWrites t = false := by
  cases t <;> simp_all [tableRegion, tableHostWrites]

/-- A write into the region of a table the block alone writes is refused (R75). -/
theorem busWrite_readOnly_region {s : State} {a : Addr} (d : Word)
    (h : 6 ≤ a.toNat / 2 ^ 28 ∧ a.toNat / 2 ^ 28 ≤ 9) : busWrite a d s = none := by
  refine Option.eq_none_iff_forall_ne_some.2 fun u hu => ?_
  obtain ⟨-, ⟨r, hloc, -⟩ | ⟨tb, w, hloc, hhost, -⟩⟩ := busWrite_cases hu
  · obtain ⟨q, ha, -⟩ | ⟨_, _, -, -, -, hl⟩ := locate_cases hloc
    · have hq := regOffset_bounds q
      omega
    · cases hl
  · obtain ⟨q, -, hl⟩ | ⟨t, x, ha, hx25, -, hl⟩ := locate_cases hloc
    · cases hl
    · cases hl
      obtain ⟨hregion, -, -⟩ := wordAddr_fields (t := tb) hx25
      rw [← ha] at hregion
      rw [tableHostWrites_eq_false (by omega)] at hhost
      cases hhost

/-- The read-only registers, in the order of their offsets (R21). -/
def readOnlyRegs : List Reg := regOrder.filter fun r => regAccess r = .readOnly

/-- Settles O14: nothing is located at the addresses of the first clause, and a write reaches neither a read-only
register nor a table of regions 6 to 9. -/
theorem absentAndReadOnlyRefused : Obligations.AbsentAndReadOnlyRefused := by
  intro s a d
  refine ⟨fun habsent => ?_, fun hreadOnly => hostEvent_write_refused ?_, fun hidle => ?_⟩
  · have hloc : locate s.build.caps a = none := locate_eq_none habsent
    exact ⟨by rw [hostEvent_read, busRead_of_locate_none hloc],
      hostEvent_write_refused (busWrite_of_locate_none d hloc)⟩
  · obtain hreg | hregion := hreadOnly
    · obtain ⟨r, hr, ha⟩ := List.mem_map.1 (show a.toNat ∈ readOnlyRegs.map regOffset from hreg)
      obtain rfl : BitVec.ofNat 32 (regOffset r) = a := by rw [ha, BitVec.ofNat_toNat, BitVec.setWidth_eq]
      exact busWrite_readOnly d (by simpa using (List.mem_filter.1 hr).2)
    · exact busWrite_readOnly_region d hregion
  · have hread : busRead s 0x00000000#32 = .okData 0 := busRead_regOffset .cmd hidle
    rw [hostEvent_read, hread]

/-- Settles O15; what a read of STATUS shows is O17. -/
theorem busyRefusesAllButStatusRead : Obligations.BusyRefusesAllButStatusRead := by
  intro s hbusy
  obtain ⟨hread, hbit, -⟩ := statusFields s
  refine ⟨fun a ha => ?_, fun a d => hostEvent_write_refused (busWrite_of_busy a d hbusy), statusWord s, ?_, ?_⟩
  · have hrefused : busRead s a = .err := by simp [busRead, busy, hbusy, statusAddr, ha]
    rw [hostEvent_read, hrefused]
  · rw [hostEvent_read, hread]
  · rw [hbit, hbusy]

/-! ### FAULT (R77): which transactions look at it, and which change it -/

/-- The register at an address other than those of CMD and STATUS is another one. -/
theorem ne_of_locate_reg {c : Caps} {a : Addr} {q r : Reg} (h : locate c a = some (.reg r))
    (ha : a ≠ BitVec.ofNat 32 (regOffset q)) : r ≠ q := by
  rintro rfl
  obtain ⟨p, hp, hl⟩ | ⟨_, _, -, -, -, hl⟩ := locate_cases h
  · cases hl
    exact ha (by rw [← hp, BitVec.ofNat_toNat, BitVec.setWidth_eq])
  · cases hl

theorem storeBytes_withFault (a n v : Nat) (s : State) (b : Bool) :
    storeBytes a n v { s with fault := b } = { storeBytes a n v s with fault := b } := by
  induction n generalizing a v s with
  | zero => rfl
  | succ n ih => exact ih (a + 1) (v / 256) (writeByte a (BitVec.ofNat 8 v) s)

theorem busWriteReg_withFault {r : Reg} (d : Word) (s : State) (b : Bool) (hcmd : r ≠ .cmd)
    (hstatus : r ≠ .status) :
    busWriteReg r d { s with fault := b } = (busWriteReg r d s).map fun t => { t with fault := b } := by
  cases r with
  | cmd => exact absurd rfl hcmd
  | status => exact absurd rfl hstatus
  | _ => rfl

/-- A write to neither CMD nor STATUS has the same outcome whatever FAULT is, and leaves it. -/
theorem busWrite_withFault {a : Addr} (d : Word) (s : State) (b : Bool) (hcmd : a ≠ 0x00000000#32)
    (hstatus : a ≠ 0x00000008#32) :
    busWrite a d { s with fault := b } = (busWrite a d s).map fun t => { t with fault := b } := by
  cases hbusy : busy s with
  | true => rw [busWrite_of_busy a d hbusy, busWrite_of_busy a d (s := { s with fault := b }) hbusy, Option.map_none]
  | false =>
    cases hloc : locate s.build.caps a with
    | none =>
      rw [busWrite_of_locate_none d hloc, busWrite_of_locate_none d (s := { s with fault := b }) hloc, Option.map_none]
    | some l =>
      cases l with
      | reg r =>
        rw [busWrite_of_locate_reg d hbusy hloc, busWrite_of_locate_reg d (s := { s with fault := b }) hbusy hloc]
        exact busWriteReg_withFault d s b (ne_of_locate_reg hloc hcmd) (ne_of_locate_reg hloc hstatus)
      | elem t w =>
        rw [busWrite_of_locate_elem d hbusy hloc, busWrite_of_locate_elem d (s := { s with fault := b }) hbusy hloc]
        cases tableHostWrites t with
        | true => exact congrArg some (storeBytes_withFault _ _ _ s b)
        | false => rfl

/-- So has the host's event: only the answer comes on top. -/
theorem hostEvent_write_withFault {a : Addr} (d : Word) (s : State) (b : Bool) (hcmd : a ≠ 0x00000000#32)
    (hstatus : a ≠ 0x00000008#32) :
    hostEvent (.write a d) { s with fault := b } = { hostEvent (.write a d) s with fault := b } := by
  have hwrite := busWrite_withFault d s b hcmd hstatus
  cases hs : busWrite a d s with
  | none => rw [hs] at hwrite; rw [hostEvent_write_refused hs, hostEvent_write_refused hwrite]
  | some t => rw [hs] at hwrite; rw [hostEvent_write_ok hs, hostEvent_write_ok hwrite]

/-- Of the registers only STATUS shows FAULT (R23). -/
theorem readReg_withFault {r : Reg} (s : State) (b : Bool) (h : r ≠ .status) :
    readReg { s with fault := b } r = readReg s r := by
  cases r with
  | status => exact absurd rfl h
  | _ => rfl

theorem busRead_withFault {a : Addr} (s : State) (b : Bool) (h : a ≠ 0x00000008#32) :
    busRead { s with fault := b } a = busRead s a := by
  cases hloc : locate s.build.caps a with
  | none => rw [busRead_of_locate_none hloc, busRead_of_locate_none (s := { s with fault := b }) hloc]
  | some l =>
    cases l with
    | reg r => simp [busRead, busy, hloc, readReg_withFault s b (ne_of_locate_reg hloc h)]
    | elem t w =>
      have helem : loadElem { s with fault := b } t w = loadElem s t w :=
        loadElem_congr (s := { s with fault := b }) (t := s) rfl rfl t w
      simp [busRead, busy, hloc, helem]

theorem busWrite_cmd_refused {s : State} (d : Word) (h : s.fault = true) : busWrite 0x00000000#32 d s = none := by
  have hloc : locate s.build.caps 0x00000000#32 = some (.reg .cmd) := locate_regOffset _ .cmd
  simp [busWrite, hloc, busWriteReg, regAccess, h]

/-- A write to STATUS of an idle block is taken (R23). -/
theorem busWrite_status {s : State} (d : Word) (h : s.running = none) :
    busWrite 0x00000008#32 d s = some (writeStatus d s) :=
  busWrite_of_locate_reg d (by simp [busy, h]) (locate_regOffset _ .status)

theorem writeStatus_fault (d : Word) (s : State) : (writeStatus d s).fault = (s.fault && !d.getLsbD 2) := by
  unfold writeStatus
  cases d.getLsbD 2 <;> simp

/-- Settles O16: only a write to CMD or STATUS and a read of STATUS look at FAULT. -/
theorem faultRefusesCommandsOnly : Obligations.FaultRefusesCommandsOnly := by
  intro s hidle hfault
  have hs : { s with fault := true } = s := by rw [← hfault]
  refine ⟨fun d => hostEvent_write_refused (busWrite_cmd_refused d hfault), fun a d hcmd hstatus => ?_,
    fun d => ?_, fun a ha => ?_⟩
  · have hkeep := hostEvent_write_withFault d { s with fault := false } true hcmd hstatus
    rwa [hs] at hkeep
  · rw [hostEvent_write_ok (busWrite_status d hidle)]
    exact ⟨rfl, by rw [writeStatus_fault, hfault, Bool.true_and]⟩
  · exact congrArg some (busRead_withFault s false ha).symm

end Sys2Proof.Machine

/-! PROOFS. The command word (`30_encoding.md` R100 to R103): how a word falls into its fields, what the opcode map
holds, that the decoder inverts the encoder and which words are legal. -/

namespace Sys2Proof

/-! ### The fields of a word (R100): bits 63:8, all reserved, and bits 7:0, the opcode -/

/-- Bits fall into an upper and a lower part in one way. -/
theorem eq_append_iff {v w : Nat} (x : BitVec (v + w)) (hi : BitVec v) (lo : BitVec w) :
    x = hi ++ lo ↔ x.extractLsb' w v = hi ∧ x.extractLsb' 0 w = lo := by
  constructor
  · rintro rfl
    exact ⟨BitVec.extractLsb'_append_eq_left, BitVec.extractLsb'_append_eq_right⟩
  · rintro ⟨rfl, rfl⟩
    exact BitVec.extractLsb'_append_extractLsb'.symm

theorem encode_eq_append (i : Instr) : encode i = 0#56 ++ i.opcode :=
  congrArg (· ++ i.opcode) (BitVec.zero_append_zero (v := 32) (w := 24))

/-- RSV1 and RSV0 side by side are bits 63:8. -/
theorem rsv1_append_rsv0 (d : Word) :
    (commandFields d).rsv1 ++ (commandFields d).rsv0 = d.extractLsb' 8 56 :=
  BitVec.extractLsb'_append_extractLsb'_eq_extractLsb' rfl

/-- The two checks on the reserved fields are one check on bits 63:8 (R101). -/
theorem reservedZero_iff (d : Word) :
    ((commandFields d).rsv0Zero && (commandFields d).rsv1Zero) = true ↔ d.extractLsb' 8 56 = 0 := by
  have hparts := eq_append_iff ((commandFields d).rsv1 ++ (commandFields d).rsv0) 0#32 0#24
  rw [BitVec.extractLsb'_append_eq_left, BitVec.extractLsb'_append_eq_right, BitVec.zero_append_zero,
    rsv1_append_rsv0] at hparts
  rw [Bool.and_eq_true, CommandFields.rsv0Zero, CommandFields.rsv1Zero, beq_iff_eq, beq_iff_eq, and_comm]
  exact hparts.symm

/-! ### The opcode map (R102) -/

theorem decodeOpcode_opcode (i : Instr) : decodeOpcode i.opcode = .ok i := by
  cases i <;> rfl

theorem opcode_bounds (i : Instr) : 1 ≤ i.opcode.toNat ∧ i.opcode.toNat ≤ 9 := by
  cases i <;> decide

/-- What an opcode can be: a command's, or one outside 0x01 to 0x09, which the map rejects. -/
theorem decodeOpcode_cases (opc : BitVec 8) :
    (∃ i : Instr, opc = i.opcode) ∨
      (¬ (1 ≤ opc.toNat ∧ opc.toNat ≤ 9) ∧ decodeOpcode opc = .error .unassignedOpcode) := by
  unfold decodeOpcode
  split
  case h_1 h => exact .inl ⟨.env, BitVec.eq_of_toNat_eq h⟩
  case h_2 h => exact .inl ⟨.tone, BitVec.eq_of_toNat_eq h⟩
  case h_3 h => exact .inl ⟨.kick, BitVec.eq_of_toNat_eq h⟩
  case h_4 h => exact .inl ⟨.snare, BitVec.eq_of_toNat_eq h⟩
  case h_5 h => exact .inl ⟨.hat, BitVec.eq_of_toNat_eq h⟩
  case h_6 h => exact .inl ⟨.seq, BitVec.eq_of_toNat_eq h⟩
  case h_7 h => exact .inl ⟨.pcmw, BitVec.eq_of_toNat_eq h⟩
  case h_8 h => exact .inl ⟨.pnge, BitVec.eq_of_toNat_eq h⟩
  case h_9 h => exact .inl ⟨.seed, BitVec.eq_of_toNat_eq h⟩
  case h_10 => exact .inr ⟨by simp only [imp_false] at *; omega, rfl⟩

theorem decodeOpcode_eq_ok_iff (opc : BitVec 8) (i : Instr) : decodeOpcode opc = .ok i ↔ opc = i.opcode := by
  constructor
  · intro h
    obtain ⟨j, rfl⟩ | ⟨-, hreject⟩ := decodeOpcode_cases opc
    · rw [decodeOpcode_opcode] at h
      rw [Except.ok.inj h]
    · rw [hreject] at h
      cases h
  · rintro rfl
    exact decodeOpcode_opcode i

/-- The assigned opcodes are those from 0x01 to 0x09 (R101). -/
theorem exists_opcode_iff (opc : BitVec 8) :
    (∃ i : Instr, opc = i.opcode) ↔ 1 ≤ opc.toNat ∧ opc.toNat ≤ 9 := by
  constructor
  · rintro ⟨i, rfl⟩
    exact opcode_bounds i
  · intro h
    exact (decodeOpcode_cases opc).resolve_right fun hreject => hreject.1 h

theorem decodeOpcode_unassigned {opc : BitVec 8} (h : ¬ (1 ≤ opc.toNat ∧ opc.toNat ≤ 9)) :
    decodeOpcode opc = .error .unassignedOpcode := by
  obtain ⟨i, rfl⟩ | ⟨-, hreject⟩ := decodeOpcode_cases opc
  · exact absurd (opcode_bounds i) h
  · exact hreject

/-! ### The decoder (R101): one equation for each side of the check on bits 63:8 -/

theorem decode_of_reserved_zero {d : Word} (h : d.extractLsb' 8 56 = 0) :
    decode d = decodeOpcode (d.extractLsb' 0 8) :=
  if_pos ((reservedZero_iff d).2 h)

theorem decode_of_reserved_ne_zero {d : Word} (h : d.extractLsb' 8 56 ≠ 0) : decode d = .error .reservedBits :=
  if_neg fun hzero => h ((reservedZero_iff d).1 hzero)

theorem decode_of_unassigned {d : Word} (hrsv : d.extractLsb' 8 56 = 0)
    (hopc : ¬ (1 ≤ (d.extractLsb' 0 8).toNat ∧ (d.extractLsb' 0 8).toNat ≤ 9)) :
    decode d = .error .unassignedOpcode := by
  rw [decode_of_reserved_zero hrsv, decodeOpcode_unassigned hopc]

theorem decode_eq_ok_iff (d : Word) (i : Instr) :
    decode d = .ok i ↔ d.extractLsb' 8 56 = 0 ∧ d.extractLsb' 0 8 = i.opcode := by
  by_cases h : d.extractLsb' 8 56 = 0
  · rw [decode_of_reserved_zero h, decodeOpcode_eq_ok_iff, and_iff_right h]
  · rw [decode_of_reserved_ne_zero h]
    exact ⟨nofun, fun hzero => absurd hzero.1 h⟩

/-- Settles O1: both sides say that bits 63:8 are 0 and bits 7:0 are the command's opcode. -/
theorem decodeInvertsEncode : Obligations.DecodeInvertsEncode := by
  intro d i
  rw [decode_eq_ok_iff, encode_eq_append, BitVec.ofNat_eq_ofNat]
  exact (eq_append_iff (v := 56) (w := 8) d 0 i.opcode).symm

/-- Settles O2: a command's opcode is one from 0x01 to 0x09, and each of those is a command's. -/
theorem decoderAcceptsNineWords : Obligations.DecoderAcceptsNineWords := by
  intro d
  simp only [decode_eq_ok_iff, exists_and_left, exists_opcode_iff]

theorem decode_encode (i : Instr) : decode (encode i) = .ok i :=
  (decodeInvertsEncode _ i).2 rfl

/-- Settles O3: the nine words are the encoder's, and each of the other three fails one of R101's checks. -/
theorem writtenWordsDecode : Obligations.WrittenWordsDecode :=
  ⟨decode_encode .env, decode_encode .tone, decode_encode .kick, decode_encode .snare, decode_encode .hat,
    decode_encode .seq, decode_encode .pcmw, decode_encode .pnge, decode_encode .seed,
    decode_of_unassigned (by decide) (by decide), decode_of_unassigned (by decide) (by decide),
    decode_of_reserved_ne_zero (by decide)⟩

end Sys2Proof

/-! PROOFS. The numerics (`40_numerics.md`): rounding to the nearest binary64 number and the four operations, the
operations that are exact, comparison by value, and the laws of SIN and NOISE. -/

namespace Sys2Proof.Machine

/-! ### Rounding to an integer (R120, R126) -/

theorem rneDiv_cases (n d : Nat) :
    (2 * (n % d) ≤ d ∧ rneDiv n d = n / d) ∨ (d ≤ 2 * (n % d) ∧ rneDiv n d = n / d + 1) := by
  unfold rneDiv
  split
  · exact .inl ⟨by omega, rfl⟩
  · split
    · exact .inr ⟨by omega, rfl⟩
    · obtain h | h := Nat.mod_two_eq_zero_or_one (n / d)
      · exact .inl ⟨by omega, by omega⟩
      · exact .inr ⟨by omega, by omega⟩

/-- At half a step the even neighbour is taken. -/
theorem rneDiv_even_of_tie {n d : Nat} (h : 2 * (n % d) = d) : rneDiv n d % 2 = 0 := by
  unfold rneDiv
  rw [if_neg (by omega), if_neg (by omega)]
  omega

/-- `n / d` lies at most half a step on either side of its rounding, which is even at exactly half a step. -/
theorem rneDiv_near (n : Nat) {d : Nat} (hd : 0 < d) :
    2 * n ≤ 2 * (rneDiv n d * d) + d ∧ 2 * (rneDiv n d * d) ≤ 2 * n + d ∧
      (2 * n = 2 * (rneDiv n d * d) + d ∨ 2 * (rneDiv n d * d) = 2 * n + d → rneDiv n d % 2 = 0) := by
  have hdiv := Nat.div_add_mod' n d
  have hlt := Nat.mod_lt n hd
  obtain ⟨hhalf, hq⟩ | ⟨hhalf, hq⟩ := rneDiv_cases n d
  · refine ⟨by rw [hq]; omega, by rw [hq]; omega, fun htie => rneDiv_even_of_tie ?_⟩
    rw [hq] at htie
    omega
  · have hstep : rneDiv n d * d = n / d * d + d := by rw [hq, Nat.succ_mul]
    refine ⟨by omega, by omega, fun htie => rneDiv_even_of_tie ?_⟩
    omega

/-! ### Magnitudes (R104): the number with a given significand and exponent -/

/-- The pattern with exponent steps `s` above the subnormals and significand `p`; `p = 2^53` carries over. -/
theorem magUnits_scaled {s p : Nat} (hp : p ≤ 2 ^ 53) (hnormal : s = 0 ∨ 2 ^ 52 ≤ p) :
    magUnits (s * 2 ^ 52 + p) = p * 2 ^ s := by
  unfold magUnits
  obtain hsub | hge := Nat.lt_or_ge p (2 ^ 52)
  · obtain rfl : s = 0 := by omega
    rw [if_pos (by omega), Nat.zero_mul, Nat.zero_add, Nat.pow_zero, Nat.mul_one]
  · rw [if_neg (by omega)]
    obtain hlt | rfl := Nat.lt_or_eq_of_le hp
    · have hexp : (s * 2 ^ 52 + p) / 2 ^ 52 - 1 = s := by omega
      have hfrac : (s * 2 ^ 52 + p) % 2 ^ 52 + 2 ^ 52 = p := by omega
      rw [hexp, hfrac]
    · have hexp : (s * 2 ^ 52 + 2 ^ 53) / 2 ^ 52 - 1 = s + 1 := by omega
      have hfrac : (s * 2 ^ 52 + 2 ^ 53) % 2 ^ 52 = 0 := by omega
      rw [hexp, hfrac, Nat.pow_succ 2 s]
      omega

/-- Every magnitude has a significand below 2^53. -/
theorem magUnits_eq_scaled (m : Nat) : ∃ p s, p < 2 ^ 53 ∧ magUnits m = p * 2 ^ s := by
  unfold magUnits
  split
  · exact ⟨m, 0, by omega, by rw [Nat.pow_zero, Nat.mul_one]⟩
  · exact ⟨_, _, by omega, rfl⟩

/-- A significand of up to 53 bits can be shifted until it is the pattern of a number. -/
theorem exists_magUnits_eq {p : Nat} (hp : p ≤ 2 ^ 53) (s : Nat) : ∃ m, magUnits m = p * 2 ^ s := by
  induction s generalizing p with
  | zero => exact ⟨_, magUnits_scaled hp (.inl rfl)⟩
  | succ s ih =>
    obtain hlt | hge := Nat.lt_or_ge p (2 ^ 52)
    · obtain ⟨m, hm⟩ := ih (p := 2 * p) (by omega)
      exact ⟨m, by rw [hm, Nat.pow_succ]; ring⟩
    · exact ⟨_, magUnits_scaled hp (.inr hge)⟩

/-- `n` units are the magnitude of a finite number. -/
def representable (n : Nat) : Prop := ∃ m, m < infMag ∧ magUnits m = n

theorem representable_fUnits {x : F64} (h : fIsFinite x = true) : representable (fUnits x).natAbs :=
  ⟨fMag x, of_decide_eq_true h, (natAbs_fUnits x).symm⟩

theorem representable_of_lt {n m : Nat} (hn : ∃ k, magUnits k = n) (hm : representable m) (h : n ≤ m) :
    representable n := by
  obtain ⟨k, rfl⟩ := hn
  obtain ⟨l, hl, rfl⟩ := hm
  exact ⟨k, Nat.lt_of_le_of_lt (magUnits_le_iff.1 h) hl, rfl⟩

theorem representable_scaled {p s : Nat} (hp : p ≤ 2 ^ 53) (hs : s < 2045) : representable (p * 2 ^ s) := by
  obtain ⟨m, hm⟩ := exists_magUnits_eq hp s
  obtain ⟨t, ht, hinf⟩ : ∃ t, s < t ∧ infMag = t * 2 ^ 52 + 2 ^ 53 := ⟨2045, hs, by decide⟩
  refine ⟨m, magUnits_strictMono.lt_iff_lt.1 ?_, hm⟩
  calc magUnits m = p * 2 ^ s := hm
    _ ≤ 2 ^ 53 * 2 ^ s := Nat.mul_le_mul_right _ hp
    _ < 2 ^ 53 * 2 ^ t := Nat.mul_lt_mul_of_pos_left (Nat.pow_lt_pow_right Nat.one_lt_two ht) (by decide)
    _ = magUnits infMag := by rw [hinf, magUnits_scaled (Nat.le_refl _) (.inr (by decide))]

/-! ### Rounding to binary64 (R120), before the overflow to infinity -/

/-- The bits 62:0 of `n / d` units rounded to 53 bits, with no bound on the exponent. -/
def freeMag (n d : Nat) : Nat := roundShift n d * 2 ^ 52 + rneDiv n (d * 2 ^ roundShift n d)

theorem roundMag_eq_min (n d : Nat) : roundMag n d = min (freeMag n d) infMag := rfl

theorem rneDiv_scaled_le (n d : Nat) : rneDiv n (d * 2 ^ roundShift n d) ≤ 2 ^ 53 :=
  (rneDiv_bounds _ _).2.trans (scaled_lt n d)

theorem rneDiv_scaled_normal (n d : Nat) :
    roundShift n d = 0 ∨ 2 ^ 52 ≤ rneDiv n (d * 2 ^ roundShift n d) := by
  obtain h | h := Nat.eq_zero_or_pos (roundShift n d)
  · exact .inl h
  · exact .inr ((scaled_ge h).trans (rneDiv_bounds _ _).1)

theorem magUnits_freeMag (n d : Nat) :
    magUnits (freeMag n d) = rneDiv n (d * 2 ^ roundShift n d) * 2 ^ roundShift n d :=
  magUnits_scaled (rneDiv_scaled_le n d) (rneDiv_scaled_normal n d)

theorem freeMag_mod_two (n d : Nat) : freeMag n d % 2 = rneDiv n (d * 2 ^ roundShift n d) % 2 := by
  unfold freeMag
  omega

/-- The next number above is at least one unit of the last place away. -/
theorem magUnits_freeMag_succ_ge (n d : Nat) :
    (rneDiv n (d * 2 ^ roundShift n d) + 1) * 2 ^ roundShift n d ≤ magUnits (freeMag n d + 1) := by
  have hle := rneDiv_scaled_le n d
  have hnormal := rneDiv_scaled_normal n d
  unfold freeMag
  generalize rneDiv n (d * 2 ^ roundShift n d) = p at *
  generalize roundShift n d = s at *
  obtain hlt | rfl := Nat.lt_or_eq_of_le hle
  · rw [Nat.add_assoc, magUnits_scaled hlt (by omega)]
  · have hcarry : s * 2 ^ 52 + 2 ^ 53 + 1 = (s + 1) * 2 ^ 52 + (2 ^ 52 + 1) := by omega
    rw [hcarry, magUnits_scaled (by omega) (by omega), Nat.pow_succ 2 s]
    omega

/-- `n / d` is at most half way from its rounding to the next number above. -/
theorem freeMag_upper (n : Nat) {d : Nat} (hd : 0 < d) :
    2 * n ≤ magUnits (freeMag n d) * d + magUnits (freeMag n d + 1) * d ∧
      (2 * n = magUnits (freeMag n d) * d + magUnits (freeMag n d + 1) * d → freeMag n d % 2 = 0) := by
  obtain ⟨hle, -, htie⟩ := rneDiv_near n (Nat.mul_pos hd (Nat.two_pow_pos (roundShift n d)))
  have hsucc := Nat.mul_le_mul_right d (magUnits_freeMag_succ_ge n d)
  have hstep : (rneDiv n (d * 2 ^ roundShift n d) + 1) * 2 ^ roundShift n d * d =
      rneDiv n (d * 2 ^ roundShift n d) * (d * 2 ^ roundShift n d) + d * 2 ^ roundShift n d := by ring
  have hself : magUnits (freeMag n d) * d =
      rneDiv n (d * 2 ^ roundShift n d) * (d * 2 ^ roundShift n d) := by rw [magUnits_freeMag]; ring
  rw [hself, freeMag_mod_two]
  exact ⟨by omega, fun h => htie (.inl (by omega))⟩

/-- `n / d` is at least half way from the next number below to its rounding. -/
theorem freeMag_lower {n d k : Nat} (hd : 0 < d) (hk : freeMag n d = k + 1) :
    magUnits k * d + magUnits (k + 1) * d ≤ 2 * n ∧
      (magUnits k * d + magUnits (k + 1) * d = 2 * n → (k + 1) % 2 = 0) := by
  have hD : 0 < d * 2 ^ roundShift n d := Nat.mul_pos hd (Nat.two_pow_pos _)
  have hself : magUnits (k + 1) * d = rneDiv n (d * 2 ^ roundShift n d) * (d * 2 ^ roundShift n d) := by
    rw [← hk, magUnits_freeMag]; ring
  obtain hsame | hbinade : (roundShift n d = 0 ∨ 2 ^ 52 < rneDiv n (d * 2 ^ roundShift n d)) ∨
      (0 < roundShift n d ∧ rneDiv n (d * 2 ^ roundShift n d) = 2 ^ 52) := by
    have := rneDiv_scaled_normal n d
    omega
  · -- the number below has the same exponent
    obtain ⟨-, hge, htie⟩ := rneDiv_near n hD
    have hle := rneDiv_scaled_le n d
    have hdef : freeMag n d = roundShift n d * 2 ^ 52 + rneDiv n (d * 2 ^ roundShift n d) := rfl
    obtain ⟨p, hp⟩ : ∃ p, rneDiv n (d * 2 ^ roundShift n d) = p + 1 :=
      Nat.exists_eq_succ_of_ne_zero (by omega)
    have hpred : magUnits k * d + d * 2 ^ roundShift n d =
        rneDiv n (d * 2 ^ roundShift n d) * (d * 2 ^ roundShift n d) := by
      rw [show k = roundShift n d * 2 ^ 52 + p by omega, magUnits_scaled (by omega) (by omega), hp]
      ring
    rw [← hk, freeMag_mod_two, hk, hself]
    exact ⟨by omega, fun h => htie (.inr (by omega))⟩
  · -- the number below has the next lower exponent, and `n / d` is not below its rounding
    obtain ⟨hs, hp⟩ := hbinade
    have hn : rneDiv n (d * 2 ^ roundShift n d) * (d * 2 ^ roundShift n d) ≤ n := by
      rw [hp]
      exact (Nat.mul_le_mul_right _ (scaled_ge hs)).trans (Nat.div_mul_le_self _ _)
    have hlt : magUnits k * d < magUnits (k + 1) * d := Nat.mul_lt_mul_of_pos_right (magUnits_lt_succ k) hd
    exact ⟨by omega, fun h => absurd h (by omega)⟩

/-! ### Overflow and the nearest number (R120) -/

/-- Half a step above the largest finite number, in units. -/
def overflowUnits : Nat := (2 ^ 54 - 1) * 2 ^ 2044

theorem overflowUnits_midpoint : magUnits (infMag - 1) + magUnits infMag = 2 * overflowUnits := by decide +kernel

/-- A rounded number is finite exactly when the exact one is nearer to zero than half a step above the largest. -/
theorem roundMag_lt_infMag_iff (n : Nat) {d : Nat} (hd : 0 < d) :
    roundMag n d < infMag ↔ n < overflowUnits * d := by
  have hmid : magUnits (infMag - 1) * d + magUnits infMag * d = 2 * (overflowUnits * d) := by
    rw [← Nat.add_mul, overflowUnits_midpoint, Nat.mul_assoc]
  rw [roundMag_eq_min, min_lt_iff, or_iff_left (lt_irrefl _)]
  obtain hlt | hge := Nat.lt_or_ge (freeMag n d) infMag
  · have hself := Nat.mul_le_mul_right d (magUnits_le_iff.2 (show freeMag n d ≤ infMag - 1 by omega))
    have hsucc := Nat.mul_le_mul_right d (magUnits_le_iff.2 (show freeMag n d + 1 ≤ infMag by omega))
    obtain ⟨hle, htie⟩ := freeMag_upper n hd
    refine iff_of_true hlt (lt_of_le_of_ne (by omega) fun heq => ?_)
    have hsat : magUnits (freeMag n d) * d = magUnits (infMag - 1) * d := by omega
    have hlast : freeMag n d = infMag - 1 := magUnits_strictMono.injective (Nat.eq_of_mul_eq_mul_right hd hsat)
    have hodd : (infMag - 1) % 2 = 1 := by decide
    have heven := htie (by omega)
    omega
  · have hpos : 0 < infMag := by decide
    obtain ⟨k, hk⟩ : ∃ k, freeMag n d = k + 1 := Nat.exists_eq_succ_of_ne_zero (by omega)
    have hself := Nat.mul_le_mul_right d (magUnits_le_iff.2 (show infMag - 1 ≤ k by omega))
    have hsucc := Nat.mul_le_mul_right d (magUnits_le_iff.2 (show infMag ≤ k + 1 by omega))
    have hle := (freeMag_lower hd hk).1
    exact iff_of_false (by omega) (by omega)

/-- No magnitude is nearer to `n / d` than the rounded one, and one that is as near makes it even. -/
theorem freeMag_nearest (n : Nat) {d : Nat} (hd : 0 < d) (k : Nat) :
    ((n : Int) - (magUnits (freeMag n d) * d : Nat)).natAbs ≤ ((n : Int) - (magUnits k * d : Nat)).natAbs ∧
      (k ≠ freeMag n d →
        ((n : Int) - (magUnits k * d : Nat)).natAbs = ((n : Int) - (magUnits (freeMag n d) * d : Nat)).natAbs →
        freeMag n d % 2 = 0) := by
  obtain hlt | heq | hgt := Nat.lt_trichotomy (freeMag n d) k
  · obtain ⟨hle, htie⟩ := freeMag_upper n hd
    have hself := Nat.mul_lt_mul_of_pos_right (magUnits_lt_succ (freeMag n d)) hd
    have hk := Nat.mul_le_mul_right d (magUnits_le_iff.2 (show freeMag n d + 1 ≤ k from hlt))
    exact ⟨by omega, fun _ h => htie (by omega)⟩
  · rw [heq]
    exact ⟨Nat.le_refl _, fun h => absurd rfl h⟩
  · obtain ⟨j, hj⟩ : ∃ j, freeMag n d = j + 1 := Nat.exists_eq_succ_of_ne_zero (by omega)
    obtain ⟨hle, htie⟩ := freeMag_lower hd hj
    have hself := Nat.mul_lt_mul_of_pos_right (magUnits_lt_succ j) hd
    have hk := Nat.mul_le_mul_right d (magUnits_le_iff.2 (show k ≤ j by omega))
    rw [hj]
    exact ⟨by omega, fun _ h => htie (by omega)⟩

/-! ### Signed results -/

/-- `n` with a sign. -/
def signed (neg : Bool) (n : Nat) : Int := if neg then -(n : Int) else n

@[simp] theorem signed_false (n : Nat) : signed false n = n := rfl

@[simp] theorem natAbs_signed (neg : Bool) (n : Nat) : (signed neg n).natAbs = n := by
  cases neg <;> simp [signed]

@[simp] theorem signed_zero (neg : Bool) : signed neg 0 = 0 := by cases neg <;> rfl

theorem natAbs_signed_sub_same (a : Bool) (m n : Nat) :
    (signed a m - signed a n).natAbs = ((m : Int) - n).natAbs := by
  unfold signed
  split <;> omega

theorem natAbs_signed_sub_other {a b : Bool} (h : b ≠ a) (m n : Nat) :
    (signed a m - signed b n).natAbs = m + n := by
  obtain rfl : b = !a := Bool.eq_not.2 h
  cases a <;> simp [signed] <;> omega

theorem signed_mul (a b : Bool) (m n : Nat) : signed a m * signed b n = signed (a != b) (m * n) := by
  cases a <;> cases b <;> simp [signed]

theorem signed_mul_natCast (a : Bool) (m n : Nat) : signed a m * (n : Int) = signed a (m * n) := by
  cases a <;> simp [signed]

theorem signed_natAbs (v : Int) : signed (decide (v < 0)) v.natAbs = v := by
  obtain h | h := lt_or_ge v 0
  · rw [decide_eq_true h, signed, if_pos rfl]
    omega
  · rw [decide_eq_false (Int.not_lt.2 h), signed_false]
    omega

theorem fUnits_eq_signed (x : F64) : fUnits x = signed (fSign x) (magUnits (fMag x)) := rfl

theorem fUnits_eq_zero_iff (x : F64) : fUnits x = 0 ↔ fMag x = 0 := by
  rw [← Int.natAbs_eq_zero, natAbs_fUnits, ← magUnits_zero]
  exact magUnits_strictMono.injective.eq_iff

/-- `fUnits_fRound` in terms of `signed`. -/
theorem fUnits_fRound_eq (neg : Bool) (n d : Nat) :
    fUnits (fRound neg n d) = signed neg (magUnits (roundMag n d)) := fUnits_fRound neg n d

theorem fIsFinite_fRound_iff (neg : Bool) (n : Nat) {d : Nat} (hd : 0 < d) :
    fIsFinite (fRound neg n d) = true ↔ n < overflowUnits * d := by
  rw [fIsFinite, fMag_fRound, decide_eq_true_eq, roundMag_lt_infMag_iff n hd]

/-- Without overflow `fRound` gives the nearest number, with an even last bit at a tie: a number of the other sign is
no nearer than one of the same sign. -/
theorem roundsTo_fRound (neg : Bool) {n d : Nat} (hd : 0 < d) (h : n < overflowUnits * d) :
    roundsTo (signed neg n) d (fRound neg n d) := by
  have hmag : roundMag n d = freeMag n d := by
    have hfin := (roundMag_lt_infMag_iff n hd).2 h
    rw [roundMag_eq_min] at hfin ⊢
    omega
  intro z _
  obtain ⟨hle, htie⟩ := freeMag_nearest n hd (fMag z)
  obtain ⟨hzero, hzeroTie⟩ := freeMag_nearest n hd 0
  rw [magUnits_zero, Nat.zero_mul] at hzero hzeroTie
  rw [fMag_fRound, fUnits_fRound_eq, fUnits_eq_signed z, hmag, signed_mul_natCast, signed_mul_natCast,
    natAbs_signed_sub_same]
  by_cases hsign : fSign z = neg
  · rw [hsign, natAbs_signed_sub_same]
    exact ⟨hle, fun hne => htie fun heq => hne (by rw [heq])⟩
  · rw [natAbs_signed_sub_other hsign]
    refine ⟨by omega, fun hne heq => hzeroTie (fun hz => hne ?_) (by omega)⟩
    have hzUnits : magUnits (fMag z) = 0 := (Nat.mul_eq_zero.1 (by omega)).resolve_right hd.ne'
    rw [hzUnits, ← hz, magUnits_zero, signed_zero, signed_zero]

/-- Finiteness and nearness of the rounding of the exact result `v` / `d` (R120). -/
theorem rounding_clauses {v : Int} {neg : Bool} {n d : Nat} (hd : 0 < d) (hv : v = signed neg n) :
    (fIsFinite (fRound neg n d) = true ↔ v.natAbs < overflowUnits * d) ∧
      (v.natAbs < overflowUnits * d → roundsTo v d (fRound neg n d)) := by
  subst hv
  rw [natAbs_signed]
  exact ⟨fIsFinite_fRound_iff neg n hd, roundsTo_fRound neg hd⟩

/-- What can be represented is what rounding gives. -/
theorem fRound_exact (neg : Bool) {n d : Nat} (hd : 0 < d) (h : representable n) :
    fIsFinite (fRound neg (n * d) d) = true ∧ fUnits (fRound neg (n * d) d) = signed neg n := by
  obtain ⟨m, hm, rfl⟩ := h
  have hmag := roundMag_exact (Nat.le_of_lt hm) hd
  rw [fIsFinite, fMag_fRound, fUnits_fRound_eq, hmag, decide_eq_true_eq]
  exact ⟨hm, rfl⟩

/-! ### The four operations on finite operands (R120): each is one rounding -/

/-- The sign of a sum: that of the exact one; an exact zero is negative only if both addends are (R120). -/
def sumSign (x y : F64) : Bool :=
  if fUnits x + fUnits y = 0 then fSign x && fSign y else decide (fUnits x + fUnits y < 0)

section Operations
variable {x y : F64} (hx : fIsFinite x = true) (hy : fIsFinite y = true)
include hx hy

theorem fAdd_eq_fRound : fAdd x y = fRound (sumSign x y) (fUnits x + fUnits y).natAbs 1 := by
  unfold sumSign
  by_cases hsum : fUnits x + fUnits y = 0
  · simp [fAdd, fIsFinite_not_nan hx, fIsFinite_not_nan hy, fIsFinite_not_inf hx, fIsFinite_not_inf hy, hsum, fRound]
  · simp [fAdd, fIsFinite_not_nan hx, fIsFinite_not_nan hy, fIsFinite_not_inf hx, fIsFinite_not_inf hy, hsum]

theorem fMul_eq_fRound :
    fMul x y = fRound (fSign x != fSign y) (magUnits (fMag x) * magUnits (fMag y)) oneUnits := by
  simp [fMul, fIsFinite_not_nan hx, fIsFinite_not_nan hy, fIsFinite_not_inf hx, fIsFinite_not_inf hy]

theorem fDiv_eq_fRound (h : fUnits y ≠ 0) :
    fDiv x y = fRound (fSign x != fSign y) (magUnits (fMag x) * oneUnits) (magUnits (fMag y)) := by
  have hmag : fMag y ≠ 0 := mt (fUnits_eq_zero_iff y).2 h
  simp [fDiv, fIsFinite_not_nan hx, fIsFinite_not_nan hy, fIsFinite_not_inf hx, fIsFinite_not_inf hy, hmag]

end Operations

theorem sum_eq_signed (x y : F64) :
    fUnits x + fUnits y = signed (sumSign x y) (fUnits x + fUnits y).natAbs := by
  unfold sumSign
  split
  case isTrue h => rw [h, Int.natAbs_zero, signed_zero]
  case isFalse => rw [signed_natAbs]

theorem prod_eq_signed (x y : F64) :
    fUnits x * fUnits y = signed (fSign x != fSign y) (magUnits (fMag x) * magUnits (fMag y)) := by
  rw [fUnits_eq_signed x, fUnits_eq_signed y, signed_mul]

theorem magUnits_pos {y : F64} (h : fUnits y ≠ 0) : 0 < magUnits (fMag y) := by
  rw [← natAbs_fUnits]
  omega

/-- The sign of a number that is not zero is that of its value. -/
theorem sign_fUnits {y : F64} (h : fUnits y ≠ 0) : (fUnits y).sign = signed (fSign y) 1 := by
  have hpos := magUnits_pos h
  rw [fUnits_eq_signed]
  cases fSign y
  · exact Int.sign_eq_one_of_pos (by simpa using hpos)
  · exact Int.sign_eq_neg_one_of_neg (by simpa [signed] using hpos)

theorem num_eq_signed (x : F64) {y : F64} (h : fUnits y ≠ 0) :
    fUnits x * oneUnits * (fUnits y).sign = signed (fSign x != fSign y) (magUnits (fMag x) * oneUnits) := by
  rw [sign_fUnits h, fUnits_eq_signed x, signed_mul_natCast, signed_mul, Nat.mul_one]

/-! Negation -/

theorem fMag_fNeg (x : F64) : fMag (fNeg x) = fMag x := by
  rw [fMag, fNeg, BitVec.toNat_xor, Nat.xor_mod_two_pow]
  simp [fMag]

theorem fSign_eq_msb (x : F64) : fSign x = x.msb := (BitVec.msb_eq_decide x).symm

theorem fSign_fNeg (x : F64) : fSign (fNeg x) = !fSign x := by
  have htop : BitVec.msb 0x8000000000000000#64 = true := by decide
  rw [fSign_eq_msb, fSign_eq_msb, fNeg, BitVec.msb_xor, htop, Bool.xor_true]

theorem fUnits_fNeg (x : F64) : fUnits (fNeg x) = -fUnits x := by
  rw [fUnits_eq_signed, fUnits_eq_signed, fMag_fNeg, fSign_fNeg]
  cases fSign x <;> simp [signed]

theorem fIsFinite_fNeg (x : F64) : fIsFinite (fNeg x) = fIsFinite x := by
  rw [fIsFinite, fIsFinite, fMag_fNeg]

/-- Settles O53: each operation is one `fRound` of the exact result, and a difference is a sum with the other sign. -/
theorem arithmeticRoundsToNearest : Obligations.ArithmeticRoundsToNearest := by
  rintro x y _ _ _ _ top hx hy rfl rfl rfl rfl htop
  have hy' : fIsFinite (fNeg y) = true := by rw [fIsFinite_fNeg, hy]
  have hdiff : fUnits x - fUnits y = fUnits x + fUnits (fNeg y) := by rw [fUnits_fNeg, Int.sub_eq_add_neg]
  have hsumClauses := rounding_clauses Nat.one_pos (sum_eq_signed x y)
  have hdiffClauses := rounding_clauses Nat.one_pos (sum_eq_signed x (fNeg y))
  have hprodClauses := rounding_clauses oneUnits_pos (prod_eq_signed x y)
  rw [Nat.mul_one] at hsumClauses hdiffClauses
  rw [htop, ← overflowUnits, hdiff, fSub, fAdd_eq_fRound hx hy, fAdd_eq_fRound hx hy', fMul_eq_fRound hx hy,
    ← fSign_fNeg]
  refine ⟨hsumClauses.1, hsumClauses.2, fSign_fRound _ _ _, hdiffClauses.1, hdiffClauses.2, fSign_fRound _ _ _,
    hprodClauses.1, hprodClauses.2, fSign_fRound _ _ _, fun hy0 => ?_⟩
  obtain ⟨hfin, hround⟩ := rounding_clauses (magUnits_pos hy0) (num_eq_signed x hy0)
  rw [fDiv_eq_fRound hx hy hy0, natAbs_fUnits]
  exact ⟨hfin, hround, fSign_fRound _ _ _⟩

/-! ### Results that are exact -/

theorem fAdd_exact {x y : F64} (hx : fIsFinite x = true) (hy : fIsFinite y = true)
    (h : representable (fUnits x + fUnits y).natAbs) :
    fIsFinite (fAdd x y) = true ∧ fUnits (fAdd x y) = fUnits x + fUnits y := by
  have hexact := fRound_exact (sumSign x y) Nat.one_pos h
  rwa [Nat.mul_one, ← fAdd_eq_fRound hx hy, ← sum_eq_signed] at hexact

theorem fSub_exact {x y : F64} (hx : fIsFinite x = true) (hy : fIsFinite y = true)
    (h : representable (fUnits x - fUnits y).natAbs) :
    fIsFinite (fSub x y) = true ∧ fUnits (fSub x y) = fUnits x - fUnits y := by
  rw [Int.sub_eq_add_neg, ← fUnits_fNeg] at h ⊢
  exact fAdd_exact hx ((fIsFinite_fNeg y).trans hy) h

/-- A quotient that is exactly `v` units is not changed by rounding. -/
theorem fDiv_exact {x y : F64} {v : Int} (hx : fIsFinite x = true) (hy : fIsFinite y = true) (hy0 : fUnits y ≠ 0)
    (hv : representable v.natAbs) (h : fUnits x * oneUnits = v * fUnits y) :
    fIsFinite (fDiv x y) = true ∧ fUnits (fDiv x y) = v := by
  have hpos := magUnits_pos hy0
  have hmag : magUnits (fMag x) * oneUnits = v.natAbs * magUnits (fMag y) := by
    have habs := congrArg Int.natAbs h
    rwa [Int.natAbs_mul, Int.natAbs_mul, Int.natAbs_natCast, natAbs_fUnits, natAbs_fUnits] at habs
  have hsigned : signed (fSign x != fSign y) v.natAbs = v := by
    have hnum := num_eq_signed x hy0
    rw [h, hmag, Int.mul_assoc, Int.mul_sign_self, natAbs_fUnits, ← signed_mul_natCast] at hnum
    exact (Int.eq_of_mul_eq_mul_right (by exact_mod_cast hpos.ne') hnum).symm
  have hexact := fRound_exact (fSign x != fSign y) hpos hv
  rwa [← hmag, ← fDiv_eq_fRound hx hy hy0, hsigned] at hexact

theorem representable_integer {n : Nat} (h : n ≤ 2 ^ 53) : representable (n * oneUnits) :=
  representable_scaled h (by decide)

/-- An integer of up to 53 bits converts exactly (R132). -/
theorem ofNatF_exact {n : Nat} (h : n ≤ 2 ^ 53) :
    fIsFinite (ofNatF n) = true ∧ fUnits (ofNatF n) = n * oneUnits := by
  have hexact := fRound_exact false Nat.one_pos (representable_integer h)
  rw [Nat.mul_one] at hexact
  exact ⟨hexact.1, hexact.2.trans (Int.natCast_mul _ _)⟩

/-- A remainder of magnitudes is a magnitude: it is a multiple of the smaller unit of the two, and below both. -/
theorem exists_magUnits_eq_mod (a b : Nat) (hb : 0 < magUnits b) :
    ∃ m, magUnits m = magUnits a % magUnits b := by
  obtain ⟨p, s, hp, ha⟩ := magUnits_eq_scaled a
  obtain ⟨q, t, hq, hb'⟩ := magUnits_eq_scaled b
  rw [hb'] at hb
  have hqpos : 0 < q := Nat.pos_of_mul_pos_right hb
  rw [ha, hb']
  obtain hlt | hle := Nat.lt_or_ge s t
  · obtain ⟨k, rfl⟩ := Nat.exists_eq_add_of_le' (Nat.le_of_lt hlt)
    have hmod : p * 2 ^ s % (q * 2 ^ (k + s)) = p % (q * 2 ^ k) * 2 ^ s := by
      rw [Nat.pow_add, ← Nat.mul_assoc, Nat.mul_mod_mul_right]
    have := Nat.mod_le p (q * 2 ^ k)
    rw [hmod]
    exact exists_magUnits_eq (by omega) s
  · obtain ⟨k, rfl⟩ := Nat.exists_eq_add_of_le' hle
    have hmod : p * 2 ^ (k + t) % (q * 2 ^ t) = p * 2 ^ k % q * 2 ^ t := by
      rw [Nat.pow_add, ← Nat.mul_assoc, Nat.mul_mod_mul_right]
    have := Nat.mod_lt (p * 2 ^ k) hqpos
    rw [hmod]
    exact exists_magUnits_eq (by omega) t

theorem fMod_exact {t d : F64} (hd : fIsFinite d = true) (ht0 : 0 ≤ fUnits t) (hd0 : 0 < fUnits d) :
    fIsFinite (fMod t d) = true ∧ fUnits (fMod t d) = fUnits t % fUnits d := by
  have hrem : representable ((fUnits t).natAbs % (fUnits d).natAbs) := by
    refine representable_of_lt ?_ (representable_fUnits hd) (Nat.mod_lt _ (by omega)).le
    rw [natAbs_fUnits, natAbs_fUnits]
    exact exists_magUnits_eq_mod _ _ (by rw [← natAbs_fUnits]; omega)
  have hexact := fRound_exact false Nat.one_pos hrem
  rw [Nat.mul_one] at hexact
  refine ⟨hexact.1, hexact.2.trans ?_⟩
  rw [signed_false, Int.natCast_mod, Int.natAbs_of_nonneg ht0, Int.natAbs_of_nonneg hd0.le]

theorem oneUnits_pos_int : (0 : Int) < oneUnits := Int.natCast_pos.2 oneUnits_pos

/-- Settles O56: the rounding of integers is `rneDiv_near`, the conversion `ofNatF_exact`. -/
theorem integersRoundAndConvert : Obligations.IntegersRoundAndConvert := by
  refine ⟨fun x _ hx0 => ?_, fun n hn => ofNatF_exact hn⟩
  obtain ⟨hle, hge, htie⟩ := rneDiv_near (fUnits x).natAbs oneUnits_pos
  have hdist : ((rneInt x : Int) * oneUnits - fUnits x).natAbs =
      ((rneDiv (fUnits x).natAbs oneUnits * oneUnits : Nat) - ((fUnits x).natAbs : Int)).natAbs := by
    rw [Int.natAbs_of_nonneg hx0, rneInt, Int.natCast_mul]
  rw [hdist]
  exact ⟨by omega, fun h => htie (by omega)⟩

/-- Settles O57: the floor is the quotient of natural numbers, and `fMod_exact` gives the remainder. -/
theorem floorAndFmodExact : Obligations.FloorAndFmodExact := by
  refine ⟨fun q _ hq0 => ?_, fun t d _ hd ht0 hd0 => ?_⟩
  · have hfloor : (floorInt q : Int) = fUnits q / oneUnits := by
      rw [floorInt, Int.natCast_div, Int.natAbs_of_nonneg hq0]
    rw [hfloor]
    exact ⟨Int.ediv_mul_le _ oneUnits_pos_int.ne', Int.lt_ediv_add_one_mul_self _ oneUnits_pos_int⟩
  · obtain ⟨hfin, hval⟩ := fMod_exact hd ht0 hd0
    rw [hval]
    exact ⟨hfin, Int.emod_def _ _, Int.emod_nonneg _ hd0.ne', Int.emod_lt_of_pos _ hd0⟩

/-! ### Comparison by value (R120, R124, R128) -/

theorem fLt_eq_decide {x y : F64} (hx : fIsFinite x = true) (hy : fIsFinite y = true) :
    fLt x y = decide (fUnits x < fUnits y) := by
  simp [fLt, fIsFinite_not_nan hx, fIsFinite_not_nan hy]

theorem fClamp_eq_ite {x lo hi : F64} (hx : fIsFinite x = true) (hlo : fIsFinite lo = true)
    (hhi : fIsFinite hi = true) :
    fClamp x lo hi = if fUnits x < fUnits lo then lo else if fUnits hi < fUnits x then hi else x := by
  simp only [fClamp, fLt_eq_decide, hx, hlo, hhi, decide_eq_true_eq]

theorem fSignum_eq_ite {v : F64} (hv : fIsFinite v = true) :
    fSignum v = if 0 < fUnits v then f1 else if fUnits v < 0 then fm1 else f0 := by
  have hzero : fUnits f0 = 0 := by decide
  have hfin : fIsFinite f0 = true := by decide
  simp only [fSignum, fLt_eq_decide, hv, hfin, hzero, decide_eq_true_eq]

/-- Settles O54: on finite operands the comparisons are those of the values. -/
theorem clampAndSignByValue : Obligations.ClampAndSignByValue := by
  refine ⟨fun x lo hi hx hlo hhi hle => ⟨fClamp_eq_ite hx hlo hhi, ?_⟩, fun v hv => ?_⟩
  · rw [fClamp_eq_ite hx hlo hhi]
    split
    case isTrue => exact ⟨le_refl _, hle⟩
    case isFalse hlow =>
      split
      case isTrue => exact ⟨hle, le_refl _⟩
      case isFalse hhigh => exact ⟨not_lt.1 hlow, not_lt.1 hhigh⟩
  · rw [fSignum_eq_ite hv]
    refine ⟨fun h => if_pos h, fun h => ?_, fun h => ?_⟩
    · rw [if_neg (by omega), if_pos h, fm1]
    · rw [if_neg (by omega), if_neg (by omega), f0]

/-! ### Truncation (R125) -/

theorem fTrunc_of_nonneg {y : F64} (h : 0 ≤ fUnits y) :
    fTrunc y * oneUnits ≤ fUnits y ∧ fUnits y < (fTrunc y + 1) * oneUnits := by
  rw [fTrunc, Int.tdiv_eq_ediv_of_nonneg h]
  exact ⟨Int.ediv_mul_le _ oneUnits_pos_int.ne', Int.lt_ediv_add_one_mul_self _ oneUnits_pos_int⟩

theorem fTrunc_fNeg (y : F64) : fTrunc (fNeg y) = -fTrunc y := by
  rw [fTrunc, fUnits_fNeg, Int.neg_tdiv, fTrunc]

theorem fTrunc_of_neg {y : F64} (h : fUnits y < 0) :
    (fTrunc y - 1) * oneUnits < fUnits y ∧ fUnits y ≤ fTrunc y * oneUnits := by
  obtain ⟨hle, hlt⟩ := fTrunc_of_nonneg (y := fNeg y) (by rw [fUnits_fNeg]; omega)
  rw [fTrunc_fNeg, fUnits_fNeg] at hle hlt
  constructor <;> linarith

/-- The 16 bits of `quant` hold its integer. -/
theorem toInt_quant {x : F64} (h : fIsFinite x = true) : (quant x).toInt = quantInt x := by
  obtain ⟨hnan, hunit⟩ := fClamp_unit (fIsFinite_not_nan h)
  have hle : (quantInt x).natAbs ≤ 32767 := natAbs_fTrunc_le (fMul_f32767_le hnan hunit)
  rw [quant, BitVec.toInt_ofInt]
  exact Int.bmod_eq_of_le (by omega) (by omega)

/-- Settles O55: the range is `sampleInRange_quant`, and the six corner cases are evaluated. -/
theorem quantTruncatesTowardZero : Obligations.QuantTruncatesTowardZero := by
  refine ⟨?_, by decide +kernel⟩
  rintro x _ _ hx rfl rfl
  obtain ⟨hlow, hhigh⟩ := sampleInRange_quant x
  have htrunc : (quant x).toInt = fTrunc (fMul (fClamp x 0xBFF0000000000000#64 0x3FF0000000000000#64)
    0x40DFFFC000000000#64) := toInt_quant hx
  refine ⟨fun h => ?_, fun h => ?_, hlow, hhigh⟩
  · rw [htrunc]
    exact fTrunc_of_nonneg h
  · rw [htrunc]
    exact fTrunc_of_neg h

/-! ### The laws of SIN and NOISE (R127, R129) -/

theorem fUnits_f1 : fUnits f1 = oneUnits := by decide +kernel

theorem fUnits_fm1 : fUnits fm1 = -(oneUnits : Int) := by decide +kernel

/-- A value of magnitude at most 1.0 is finite: infinity has a greater one. -/
theorem fIsFinite_of_natAbs_le {y : F64} (h : (fUnits y).natAbs ≤ oneUnits) : fIsFinite y = true := by
  rw [natAbs_fUnits, ← magUnits_f1, magUnits_le_iff] at h
  have hone : fMag f1 < infMag := by decide
  exact decide_eq_true (Nat.lt_of_le_of_lt h hone)

/-- The model's test for [-1.0, 1.0] is that range by value. -/
theorem inUnit_iff (y : F64) : inUnit y = true ↔ unitValue y := by
  have hlow : fIsNaN fm1 = false := by decide
  have hhigh : fIsNaN f1 = false := by decide
  have htest : inUnit y = true ↔ fIsNaN y = false ∧ -(oneUnits : Int) ≤ fUnits y ∧ fUnits y ≤ oneUnits := by
    simp only [inUnit, fLe, hlow, hhigh, fUnits_f1, fUnits_fm1, Bool.and_eq_true, Bool.not_eq_true',
      decide_eq_true_eq, true_and, and_true]
    exact ⟨fun ⟨⟨hnan, hge⟩, _, hle⟩ => ⟨hnan, hge, hle⟩, fun ⟨hnan, hge, hle⟩ => ⟨⟨hnan, hge⟩, hnan, hle⟩⟩
  rw [htest]
  exact ⟨fun ⟨_, hge, hle⟩ => ⟨fIsFinite_of_natAbs_le (by omega), hge, hle⟩,
    fun ⟨hfin, hge, hle⟩ => ⟨fIsFinite_not_nan hfin, hge, hle⟩⟩

theorem unitValue_zero {x : F64} (h : fMag x = 0) : unitValue x := by
  have hval := (fUnits_eq_zero_iff x).2 h
  exact ⟨fIsFinite_of_natAbs_le (by omega), by omega, by omega⟩

theorem unitValue_f0 : unitValue f0 := unitValue_zero (by decide)

theorem unitValue_lawfulSin (f : F64 → F64) (x : F64) : unitValue (lawfulSin f x) := by
  obtain ⟨hzero, heq⟩ | ⟨-, hunit, heq⟩ | ⟨-, -, heq⟩ := lawfulSin_cases f x
  · rw [heq]
    exact unitValue_zero hzero
  · rw [heq]
    exact (inUnit_iff _).1 hunit
  · rw [heq]
    exact unitValue_f0

theorem lawfulSin_zero (f : F64 → F64) {x : F64} (h : fUnits x = 0) : lawfulSin f x = x :=
  if_pos ((fUnits_eq_zero_iff x).1 h)

theorem unitValue_lawfulDraw (d : NoiseState × F64) : unitValue (lawfulDraw d).2 := by
  unfold lawfulDraw
  split
  case isTrue h => exact (inUnit_iff _).1 h
  case isFalse => exact unitValue_f0

theorem lawfulDraw_of_unitValue (r : NoiseState) {y : F64} (h : unitValue y) : lawfulDraw (r, y) = (r, y) :=
  if_pos ((inUnit_iff _).2 h)

/-- Settles O58: the laws hold of `lawfulSin` and `lawfulDraw`, whatever function is below them. -/
theorem sineAndNoiseLaws : Obligations.SineAndNoiseLaws := by
  intro i x r _
  cases i with
  | reference => exact ⟨unitValue_lawfulSin _ x, lawfulSin_zero _, unitValue_lawfulDraw _⟩
  | other k => exact ⟨unitValue_lawfulSin _ x, lawfulSin_zero _, unitValue_lawfulDraw _⟩

/-! ### NOISE_REF (R130) -/

/-- A bit pattern equal to its own left shift has no lowest bit set. -/
theorem eq_zero_of_xor_shiftLeft {w k : Nat} {x : BitVec w} (hk : 0 < k) (h : x ^^^ (x <<< k) = 0#w) :
    x = 0#w := by
  have heq := BitVec.xor_eq_zero_iff.1 h
  have hbit (i : Nat) : x.getLsbD i = false := by
    induction i using Nat.strong_induction_on with
    | _ i ih =>
      rw [heq, BitVec.getLsbD_shiftLeft]
      obtain hlt | hge := Nat.lt_or_ge i k
      · simp [hlt]
      · simp [ih (i - k) (by omega)]
  exact BitVec.eq_of_getLsbD_eq fun i _ => by rw [hbit, BitVec.getLsbD_zero]

/-- A number equal to its own right shift is 0. -/
theorem eq_zero_of_xor_shiftRight {w k : Nat} {x : BitVec w} (hk : 0 < k) (h : x ^^^ (x >>> k) = 0#w) :
    x = 0#w := by
  have heq := congrArg BitVec.toNat (BitVec.xor_eq_zero_iff.1 h)
  rw [BitVec.toNat_ushiftRight, Nat.shiftRight_eq_div_pow] at heq
  by_contra hne
  have hpos : 0 < x.toNat := Nat.pos_of_ne_zero fun hz => hne (BitVec.eq_of_toNat_eq hz)
  exact (Nat.div_lt_self hpos (Nat.one_lt_two_pow hk.ne')).ne' heq

/-- Each of the three shifts of a step loses no state (R130). -/
theorem xorshift32_ne_zero {x : BitVec 32} (h : x ≠ 0) : xorshift32 x ≠ 0 := fun hzero =>
  h (eq_zero_of_xor_shiftLeft (k := 13) (by decide)
    (eq_zero_of_xor_shiftRight (k := 17) (by decide)
      (eq_zero_of_xor_shiftLeft (k := 5) (by decide) hzero)))

/-- The step of the values of NOISE_REF, 2^-31, in units. -/
def noiseStep : Nat := 2 ^ 1043

theorem oneUnits_eq_noiseStep : (oneUnits : Int) = 2 ^ 31 * noiseStep := by decide +kernel

/-- The value x / 2^31 - 1 of a state is exact: the quotient and the difference are multiples of 2^-31 (R130). -/
theorem noiseRefValue_exact (x : BitVec 32) :
    fIsFinite (noiseRefValue x) = true ∧ fUnits (noiseRefValue x) = ((x.toNat : Int) - 2 ^ 31) * noiseStep := by
  have hlt := x.isLt
  have hrep {p : Nat} (hp : p ≤ 2 ^ 53) : representable (p * noiseStep) := representable_scaled hp (by decide)
  have hscale : fUnits 0x41E0000000000000#64 = 2 ^ 31 * oneUnits := by decide +kernel
  obtain ⟨hintFin, hintVal⟩ := ofNatF_exact (n := x.toNat) (by omega)
  obtain ⟨hquotFin, hquotVal⟩ := fDiv_exact (y := 0x41E0000000000000#64) (v := ((x.toNat * noiseStep : Nat) : Int))
    hintFin (by decide) (by decide +kernel) (hrep (by omega))
    (by rw [hintVal, hscale, Int.natCast_mul]; linear_combination (x.toNat : Int) * oneUnits * oneUnits_eq_noiseStep)
  have hval : fUnits (fDiv (ofNatF x.toNat) 0x41E0000000000000#64) - fUnits f1 =
      ((x.toNat : Int) - 2 ^ 31) * noiseStep := by
    rw [hquotVal, fUnits_f1, oneUnits_eq_noiseStep, Int.natCast_mul, Int.sub_mul]
  obtain ⟨hfin, hdiff⟩ := fSub_exact (y := f1) hquotFin (by decide) (by
    rw [hval, Int.natAbs_mul, Int.natAbs_natCast]
    exact hrep (by omega))
  exact ⟨hfin, hdiff.trans hval⟩

theorem unitValue_noiseRefValue (x : BitVec 32) : unitValue (noiseRefValue x) := by
  have hlt := x.isLt
  obtain ⟨hfin, hval⟩ := noiseRefValue_exact x
  have hstep : (0 : Int) ≤ noiseStep := Int.natCast_nonneg _
  have hx : (0 : Int) ≤ x.toNat ∧ (x.toNat : Int) ≤ 2 ^ 31 + 2 ^ 31 := by omega
  refine ⟨hfin, ?_, ?_⟩
  · rw [hval, oneUnits_eq_noiseStep, ← Int.neg_mul]
    exact Int.mul_le_mul_of_nonneg_right (by omega) hstep
  · rw [hval, oneUnits_eq_noiseStep]
    exact Int.mul_le_mul_of_nonneg_right (by omega) hstep

/-- Law N2 leaves a draw of NOISE_REF as it is. -/
theorem noiseOf_reference (r : NoiseState) :
    noiseOf .reference r =
      ((xorshift32 (BitVec.ofNat 32 r)).toNat, noiseRefValue (xorshift32 (BitVec.ofNat 32 r))) := by
  have hunit := unitValue_noiseRefValue (xorshift32 (BitVec.ofNat 32 r))
  rw [noiseOf, noiseRefNext, lawfulDraw_of_unitValue _ hunit]

/-- Settles O59: a step of NOISE_REF is `xorshift32`, which keeps a state from 0, and its value is exact. -/
theorem noiseReferenceStep : Obligations.NoiseReferenceStep := by
  intro r x1 x2 x3 hpos hlt h1 h2 h3
  have hstep : x3 = xorshift32 (BitVec.ofNat 32 r) := by rw [h3, h2, h1, xorshift32]
  have hseed : BitVec.ofNat 32 r ≠ 0 := fun hzero => by
    have hnat := congrArg BitVec.toNat hzero
    rw [BitVec.toNat_ofNat, Nat.mod_eq_of_lt hlt] at hnat
    exact hpos.ne' hnat
  obtain ⟨-, hval⟩ := noiseRefValue_exact x3
  rw [noiseOf_reference, ← hstep]
  refine ⟨rfl, hstep ▸ xorshift32_ne_zero hseed, ?_⟩
  rw [hval, oneUnits_eq_noiseStep]
  ring

end Sys2Proof.Machine

/-! PROOFS. The envelope (`41_envelope.md`): rounding keeps the order of exact results, the operand domains by value,
the envelope segment by segment, and the command ENV. -/

namespace Sys2Proof.Machine

/-! ### Rounding keeps order (R120): bounds of an exact result that are binary64 numbers are bounds of its rounding -/

/-- Rounding keeps the order of signed quotients; it is `roundMag_mono` on either side of zero. -/
theorem fUnits_fRound_mono {a b : Bool} {m n d e : Nat} (hd : 0 < d) (he : 0 < e)
    (h : signed a m * e ≤ signed b n * d) : fUnits (fRound a m d) ≤ fUnits (fRound b n e) := by
  have hmono {m n d e : Nat} (hd : 0 < d) (he : 0 < e) (h : m * e ≤ n * d) :
      magUnits (roundMag m d) ≤ magUnits (roundMag n e) := magUnits_le_iff.2 (roundMag_mono hd he h)
  rw [signed_mul_natCast, signed_mul_natCast] at h
  rw [fUnits_fRound_eq, fUnits_fRound_eq]
  cases a <;> cases b <;> simp only [signed, if_true, Bool.false_eq_true, if_false] at h ⊢
  case false.false => exact_mod_cast hmono hd he (by exact_mod_cast h)
  case true.true => exact neg_le_neg (by exact_mod_cast hmono he hd (by omega))
  case true.false => omega
  case false.true =>
    obtain rfl : m = 0 := (Nat.mul_eq_zero.1 (by omega)).resolve_right he.ne'
    obtain rfl : n = 0 := (Nat.mul_eq_zero.1 (by omega)).resolve_right hd.ne'
    simp

/-- `r` is the exact number of `v` / `d` units, rounded (R9 `fl`). -/
def isRounding (v : Int) (d : Nat) (r : F64) : Prop :=
  0 < d ∧ ∃ neg n, v = signed neg n ∧ r = fRound neg n d

theorem isRounding_mono {v w : Int} {d e : Nat} {q r : F64} (hq : isRounding v d q) (hr : isRounding w e r)
    (h : v * e ≤ w * d) : fUnits q ≤ fUnits r := by
  obtain ⟨hd, a, m, rfl, rfl⟩ := hq
  obtain ⟨he, b, n, rfl, rfl⟩ := hr
  exact fUnits_fRound_mono hd he h

theorem isRounding_not_nan {v : Int} {d : Nat} {r : F64} (hr : isRounding v d r) : fIsNaN r = false := by
  obtain ⟨-, neg, n, -, rfl⟩ := hr
  exact fRound_not_nan neg n d

theorem isRounding_self {x : F64} (hx : fIsFinite x = true) : isRounding (fUnits x) 1 x := by
  refine ⟨Nat.one_pos, fSign x, magUnits (fMag x), fUnits_eq_signed x, ?_⟩
  have hexact := roundMag_exact (Nat.le_of_lt (of_decide_eq_true hx)) Nat.one_pos
  rw [Nat.mul_one] at hexact
  rw [fRound, hexact, fPack_fSign_fMag]

theorem fUnits_f0 : fUnits f0 = 0 := by decide

section Bounds
variable {v : Int} {d : Nat} {r x : F64} (hr : isRounding v d r)
include hr

theorem le_isRounding (hx : fIsFinite x = true) (h : fUnits x * d ≤ v) : fUnits x ≤ fUnits r :=
  isRounding_mono (isRounding_self hx) hr (by rwa [Nat.cast_one, Int.mul_one])

theorem isRounding_le (hx : fIsFinite x = true) (h : v ≤ fUnits x * d) : fUnits r ≤ fUnits x :=
  isRounding_mono hr (isRounding_self hx) (by rwa [Nat.cast_one, Int.mul_one])

/-- A number of binary64 is its own rounding, by value. -/
theorem isRounding_exact (hx : fIsFinite x = true) (h : v = fUnits x * d) : fUnits r = fUnits x :=
  le_antisymm (isRounding_le hr hx h.le) (le_isRounding hr hx h.ge)

theorem isRounding_zero (h : v = 0) : fUnits r = 0 :=
  isRounding_exact (x := f0) hr (by decide) (by rw [h, fUnits_f0, Int.zero_mul])

end Bounds

/-- Infinity is not between two finite numbers. -/
theorem fIsFinite_of_between {lo hi r : F64} (hlo : fIsFinite lo = true) (hhi : fIsFinite hi = true)
    (hge : fUnits lo ≤ fUnits r) (hle : fUnits r ≤ fUnits hi) : fIsFinite r = true := by
  have habs : (fUnits r).natAbs ≤ (fUnits lo).natAbs ∨ (fUnits r).natAbs ≤ (fUnits hi).natAbs := by omega
  simp only [natAbs_fUnits, magUnits_le_iff] at habs
  simp only [fIsFinite, decide_eq_true_eq] at hlo hhi ⊢
  omega

theorem isRounding_between {v : Int} {d : Nat} {lo hi r : F64} (hr : isRounding v d r) (hlo : fIsFinite lo = true)
    (hhi : fIsFinite hi = true) (hge : fUnits lo * d ≤ v) (hle : v ≤ fUnits hi * d) :
    valueIn (fUnits lo) (fUnits hi) r :=
  have hlow := le_isRounding hr hlo hge
  have hhigh := isRounding_le hr hhi hle
  ⟨fIsFinite_of_between hlo hhi hlow hhigh, hlow, hhigh⟩

/-! The four operations are roundings of the exact results (R120). -/

section Operations
variable {x y : F64} (hx : fIsFinite x = true) (hy : fIsFinite y = true)
include hx hy

theorem isRounding_fAdd : isRounding (fUnits x + fUnits y) 1 (fAdd x y) :=
  ⟨Nat.one_pos, _, _, sum_eq_signed x y, fAdd_eq_fRound hx hy⟩

theorem isRounding_fSub : isRounding (fUnits x - fUnits y) 1 (fSub x y) := by
  rw [Int.sub_eq_add_neg, ← fUnits_fNeg]
  exact isRounding_fAdd hx ((fIsFinite_fNeg y).trans hy)

theorem isRounding_fMul : isRounding (fUnits x * fUnits y) oneUnits (fMul x y) :=
  ⟨oneUnits_pos, _, _, prod_eq_signed x y, fMul_eq_fRound hx hy⟩

theorem isRounding_fDiv (hpos : 0 < fUnits y) :
    isRounding (fUnits x * oneUnits) (fUnits y).natAbs (fDiv x y) := by
  have hnum := num_eq_signed x hpos.ne'
  rw [Int.sign_eq_one_of_pos hpos, Int.mul_one] at hnum
  refine ⟨by omega, _, _, hnum, ?_⟩
  rw [natAbs_fUnits, fDiv_eq_fRound hx hy hpos.ne']

end Operations

/-! ### Operands by value (R120, R124, R256) -/

theorem fUnits_fTwo32 : fUnits fTwo32 = (2 ^ 32 * oneUnits : Nat) := by decide +kernel

theorem fSign_eq_decide {x : F64} (h : fUnits x ≠ 0) : fSign x = decide (fUnits x < 0) := by
  have hpos := magUnits_pos h
  rw [fUnits_eq_signed]
  cases fSign x
  · exact (decide_eq_false (Int.not_lt.2 (Int.natCast_nonneg _))).symm
  · simpa [signed] using hpos

/-- A value other than zero has one pattern. -/
theorem eq_of_fUnits_eq {x y : F64} (h : fUnits x = fUnits y) (hne : fUnits y ≠ 0) : x = y := by
  have hmag : fMag x = fMag y := magUnits_strictMono.injective (by rw [← natAbs_fUnits, h, natAbs_fUnits])
  have hsign : fSign x = fSign y := by rw [fSign_eq_decide hne, fSign_eq_decide (h ▸ hne), h]
  rw [← fPack_fSign_fMag x, hsign, hmag, fPack_fSign_fMag]

theorem fLt_of_not_nan {x y : F64} (hx : fIsNaN x = false) (hy : fIsNaN y = false) :
    fLt x y = decide (fUnits x < fUnits y) := by
  simp [fLt, hx, hy]

theorem fMax_eq_ite {x y : F64} (hx : fIsFinite x = true) (hy : fIsFinite y = true) :
    fMax x y = if fUnits x < fUnits y then y else x := by
  simp only [fMax, fLt_eq_decide hx hy, decide_eq_true_eq]

/-- The clamp to [0, 1] by value; it brings an infinity to a bound too, so that a quotient need not be finite. -/
theorem fUnits_fClamp_unit {x : F64} (hx : fIsNaN x = false) :
    fUnits (fClamp x f0 f1) = max 0 (min (fUnits x) oneUnits) := by
  have hone := oneUnits_pos_int
  rw [fClamp, fLt_of_not_nan hx (by decide), fLt_of_not_nan (by decide) hx, fUnits_f0, fUnits_f1]
  simp only [decide_eq_true_eq]
  split
  case isTrue hlow => rw [fUnits_f0]; omega
  case isFalse hlow =>
    split
    case isTrue hhigh => rw [fUnits_f1]; omega
    case isFalse hhigh => omega

theorem levelValue_fClamp {x : F64} (hx : fIsNaN x = false) : levelValue (fClamp x f0 f1) := by
  have hone := oneUnits_pos_int
  have hclamp := fUnits_fClamp_unit hx
  exact ⟨fIsFinite_of_natAbs_le (by omega), by omega, by omega⟩

/-- The test of an operand's domain is the domain by value (R256). -/
theorem inDomain_eq_decide {lo hi : F64} (hlo : fIsFinite lo = true) (hhi : fIsFinite hi = true) (x : F64) :
    inDomain lo hi x = decide (valueIn (fUnits lo) (fUnits hi) x) := by
  by_cases hx : fIsFinite x = true
  · simp [inDomain, fLe, hx, fIsFinite_not_nan hx, fIsFinite_not_nan hlo, fIsFinite_not_nan hhi]
  · simp [inDomain, hx]

theorem timeOk_eq_decide (x : F64) : timeOk x = decide (timeValue x) := by
  rw [timeOk, inDomain_eq_decide (by decide) (by decide), fUnits_f0, fUnits_fTwo32]

theorem sustainOk_eq_decide (x : F64) : sustainOk x = decide (levelValue x) := by
  rw [sustainOk, inDomain_eq_decide (by decide) (by decide), fUnits_f0, fUnits_f1]

/-! ### Results between 0 and 1 (R152 (a)) -/

theorem levelValue_of_isRounding {v : Int} {d : Nat} {r : F64} (hr : isRounding v d r) (h0 : 0 ≤ v)
    (h1 : v ≤ oneUnits * d) : levelValue r := by
  have hunit := isRounding_between (lo := f0) (hi := f1) hr (by decide) (by decide)
    (by rwa [fUnits_f0, Int.zero_mul]) (by rwa [fUnits_f1])
  rwa [fUnits_f0, fUnits_f1] at hunit

theorem levelValue_fDiv {x y : F64} (hx : fIsFinite x = true) (hy : fIsFinite y = true) (h0 : 0 ≤ fUnits x)
    (hle : fUnits x ≤ fUnits y) (hpos : 0 < fUnits y) : levelValue (fDiv x y) := by
  refine levelValue_of_isRounding (isRounding_fDiv hx hy hpos) (Int.mul_nonneg h0 oneUnits_pos_int.le) ?_
  rw [Int.natAbs_of_nonneg hpos.le, Int.mul_comm]
  exact Int.mul_le_mul_of_nonneg_left hle oneUnits_pos_int.le

theorem levelValue_fMul {x y : F64} (hx : levelValue x) (hy : levelValue y) : levelValue (fMul x y) := by
  obtain ⟨hxfin, hx0, hx1⟩ := hx
  obtain ⟨hyfin, hy0, hy1⟩ := hy
  exact levelValue_of_isRounding (isRounding_fMul hxfin hyfin) (Int.mul_nonneg hx0 hy0)
    (Int.mul_le_mul hx1 hy1 hy0 oneUnits_pos_int.le)

theorem levelValue_one_sub {x : F64} (hx : levelValue x) : levelValue (fSub f1 x) := by
  obtain ⟨hfin, h0, h1⟩ := hx
  exact levelValue_of_isRounding (isRounding_fSub (by decide) hfin) (by rw [fUnits_f1]; omega)
    (by rw [fUnits_f1]; omega)

/-- A difference of two times is finite: it lies between the two, the second one negated. -/
theorem fIsFinite_fSub_of_nonneg {x y : F64} (hx : fIsFinite x = true) (hy : fIsFinite y = true) (hx0 : 0 ≤ fUnits x)
    (hy0 : 0 ≤ fUnits y) : fIsFinite (fSub x y) = true := by
  refine (isRounding_between (lo := fNeg y) (hi := x) (isRounding_fSub hx hy) ?_ hx ?_ ?_).1
  · rw [fIsFinite_fNeg, hy]
  · rw [fUnits_fNeg]; omega
  · omega

/-! ### The divisors (R151): floored at EPS, so never zero -/

/-- A divisor is a finite positive number, and no less than the time it is made of. -/
theorem divisor_bounds {x : F64} (hx : fIsFinite x = true) :
    fIsFinite (fMax x Config.eps) = true ∧ fUnits x ≤ fUnits (fMax x Config.eps) ∧
      0 < fUnits (fMax x Config.eps) := by
  have hfin : fIsFinite Config.eps = true := by decide
  have hpos : 0 < fUnits Config.eps := by decide +kernel
  rw [fMax_eq_ite hx hfin]
  split
  case isTrue h => exact ⟨hfin, h.le, hpos⟩
  case isFalse h => exact ⟨hx, le_refl _, by omega⟩

/-! ### The envelope segment by segment (R151) -/

/-- How far the decay has come: the fraction of its length, `(t - A) / max(D, EPS)` (R151). -/
def decayFraction (t a d : F64) : F64 := fDiv (fSub t a) (fMax d Config.eps)

/-- How much of the release is left: `clamp((T - t) / max(R, EPS), 0, 1)` (R151). -/
def releaseFraction (t r total : F64) : F64 := fClamp (fDiv (fSub total t) (fMax r Config.eps)) f0 f1

section Envelope
variable {t u a d s r total : F64} (ht : timeValue t) (hu : timeValue u) (ha : timeValue a) (hd : timeValue d)
  (hs : levelValue s) (hr : timeValue r) (htotal : timeValue total)

include ht ha hd hr htotal in
/-- The tests of the envelope are by value. -/
theorem envelope_eq_ite :
    envelope t a d s r total =
      if fUnits t < fUnits a then fDiv t (fMax a Config.eps)
      else if fUnits t < fUnits (fAdd a d) then fSub f1 (fMul (fSub f1 s) (decayFraction t a d))
      else if fUnits t < fUnits (fSub total r) then s
      else fMul s (releaseFraction t r total) := by
  have hsum := isRounding_not_nan (isRounding_fAdd ha.1 hd.1)
  have hdiff := isRounding_not_nan (isRounding_fSub htotal.1 hr.1)
  have htime := fIsFinite_not_nan ht.1
  simp only [envelope, decayFraction, releaseFraction, fLt_eq_decide ht.1 ha.1, fLt_of_not_nan htime hsum,
    fLt_of_not_nan htime hdiff, decide_eq_true_eq]

/-! The decay. -/

include ht ha hd in
/-- While the time is below the rounded end of the decay it is not above the exact one, so that the fraction is in
[0, 1] (R152 (a)). -/
theorem levelValue_decayFraction (hattack : fUnits a ≤ fUnits t) (hdecay : fUnits t < fUnits (fAdd a d)) :
    levelValue (decayFraction t a d) := by
  obtain ⟨hfin, hge, hpos⟩ := divisor_bounds hd.1
  have hend : fUnits t ≤ fUnits a + fUnits d := by
    by_contra hgt
    have hle := isRounding_le (isRounding_fAdd ha.1 hd.1) ht.1 (by omega)
    omega
  obtain ⟨hdiff, hdiff0, hdiffd⟩ := isRounding_between (lo := f0) (hi := d) (isRounding_fSub ht.1 ha.1)
    (by decide) hd.1 (by rw [fUnits_f0]; omega) (by omega)
  rw [fUnits_f0] at hdiff0
  exact levelValue_fDiv hdiff hfin hdiff0 (hdiffd.trans hge) hpos

include ht ha hd in
theorem decayFraction_start (h : fUnits t = fUnits a) : fUnits (decayFraction t a d) = 0 := by
  obtain ⟨hfin, -, hpos⟩ := divisor_bounds hd.1
  have hdiff : fUnits (fSub t a) = 0 := isRounding_zero (isRounding_fSub ht.1 ha.1) (by omega)
  have hdiffFin := fIsFinite_fSub_of_nonneg ht.1 ha.1 ht.2.1 ha.2.1
  exact isRounding_zero (isRounding_fDiv hdiffFin hfin hpos) (by rw [hdiff, Int.zero_mul])

include ht ha hd in
/-- From the exact end of the decay on the first two tests fail. -/
theorem not_before_decayEnd (h : fUnits a + fUnits d ≤ fUnits t) :
    ¬ fUnits t < fUnits a ∧ ¬ fUnits t < fUnits (fAdd a d) := by
  have hle := isRounding_le (isRounding_fAdd ha.1 hd.1) ht.1 (by omega)
  have hd0 := hd.2.1
  exact ⟨by omega, by omega⟩

/-! The release. -/

include ht hr htotal

theorem isRounding_releaseQuotient :
    isRounding (fUnits (fSub total t) * oneUnits) (fUnits (fMax r Config.eps)).natAbs
      (fDiv (fSub total t) (fMax r Config.eps)) := by
  obtain ⟨hfin, -, hpos⟩ := divisor_bounds hr.1
  exact isRounding_fDiv (fIsFinite_fSub_of_nonneg htotal.1 ht.1 htotal.2.1 ht.2.1) hfin hpos

theorem levelValue_releaseFraction : levelValue (releaseFraction t r total) :=
  levelValue_fClamp (isRounding_not_nan (isRounding_releaseQuotient ht hr htotal))

theorem fUnits_releaseFraction :
    fUnits (releaseFraction t r total) =
      max 0 (min (fUnits (fDiv (fSub total t) (fMax r Config.eps))) oneUnits) :=
  fUnits_fClamp_unit (isRounding_not_nan (isRounding_releaseQuotient ht hr htotal))

include hu in
/-- The difference, the quotient and the clamp each keep the order (R152 (f)). -/
theorem releaseFraction_antitone (h : fUnits t ≤ fUnits u) :
    fUnits (releaseFraction u r total) ≤ fUnits (releaseFraction t r total) := by
  have hdiff : fUnits (fSub total u) ≤ fUnits (fSub total t) :=
    isRounding_mono (isRounding_fSub htotal.1 hu.1) (isRounding_fSub htotal.1 ht.1) (by omega)
  have hquot : fUnits (fDiv (fSub total u) (fMax r Config.eps)) ≤ fUnits (fDiv (fSub total t) (fMax r Config.eps)) :=
    isRounding_mono (isRounding_releaseQuotient hu hr htotal) (isRounding_releaseQuotient ht hr htotal)
      (Int.mul_le_mul_of_nonneg_right (Int.mul_le_mul_of_nonneg_right hdiff oneUnits_pos_int.le)
        (Int.natCast_nonneg _))
  rw [fUnits_releaseFraction hu hr htotal, fUnits_releaseFraction ht hr htotal]
  exact max_le_max_left _ (min_le_min_right _ hquot)

/-- Nothing of the release is left at the end and after it (R152 (c), (e), (h)). -/
theorem releaseFraction_after_end (h : fUnits total ≤ fUnits t) : fUnits (releaseFraction t r total) = 0 := by
  have hdiff : fUnits (fSub total total) = 0 := isRounding_zero (isRounding_fSub htotal.1 htotal.1) (by omega)
  have hquot := isRounding_zero (isRounding_releaseQuotient htotal hr htotal) (by rw [hdiff, Int.zero_mul])
  have hend := releaseFraction_antitone htotal ht hr htotal h
  rw [fUnits_releaseFraction htotal hr htotal, hquot] at hend
  have hone := oneUnits_pos_int
  obtain ⟨-, hlevel0, -⟩ := levelValue_releaseFraction ht hr htotal
  omega

/-! The whole envelope. -/

include ha hd

theorem envelope_sustain (hdecay : fUnits a + fUnits d ≤ fUnits t) (hend : fUnits t < fUnits (fSub total r)) :
    envelope t a d s r total = s := by
  obtain ⟨hattack, hdecay⟩ := not_before_decayEnd ht ha hd hdecay
  rw [envelope_eq_ite ht ha hd hr htotal, if_neg hattack, if_neg hdecay, if_pos hend]

theorem envelope_release (hdecay : fUnits a + fUnits d ≤ fUnits t) (hstart : fUnits (fSub total r) ≤ fUnits t) :
    envelope t a d s r total = fMul s (releaseFraction t r total) := by
  obtain ⟨hattack, hdecay⟩ := not_before_decayEnd ht ha hd hdecay
  rw [envelope_eq_ite ht ha hd hr htotal, if_neg hattack, if_neg hdecay, if_neg (not_lt.2 hstart)]

/-- At time 0 a positive attack has come to nothing yet (R152 (b)). -/
theorem envelope_attack_start (h0 : fUnits t = 0) (hattack : 0 < fUnits a) :
    fUnits (envelope t a d s r total) = 0 := by
  obtain ⟨hfin, -, hpos⟩ := divisor_bounds ha.1
  rw [envelope_eq_ite ht ha hd hr htotal, if_pos (by omega)]
  exact isRounding_zero (isRounding_fDiv ht.1 hfin hpos) (by rw [h0, Int.zero_mul])

include hs

/-- Without an attack a positive decay starts at time 0 from 1.0, also as a pattern (R152 (g)). -/
theorem envelope_decay_start (h0 : fUnits t = 0) (hattack : fUnits a = 0) (hdecay : 0 < fUnits d) :
    envelope t a d s r total = f1 := by
  have hend := le_isRounding (isRounding_fAdd ha.1 hd.1) hd.1 (by omega)
  have hbefore : fUnits t < fUnits (fAdd a d) := by omega
  have hfrac := levelValue_decayFraction ht ha hd (by omega) hbefore
  have hprod := levelValue_fMul (levelValue_one_sub hs) hfrac
  have hzero : fUnits (fMul (fSub f1 s) (decayFraction t a d)) = 0 :=
    isRounding_zero (isRounding_fMul (levelValue_one_sub hs).1 hfrac.1)
      (by rw [decayFraction_start ht ha hd (by omega), Int.mul_zero])
  rw [envelope_eq_ite ht ha hd hr htotal, if_neg (by omega), if_pos hbefore]
  exact eq_of_fUnits_eq (isRounding_exact (isRounding_fSub (by decide) hprod.1) (by decide) (by omega))
    (by rw [fUnits_f1]; exact oneUnits_pos_int.ne')

/-- At the end and after it the envelope is zero, whatever the release (R152 (c), (e), (h)). -/
theorem envelope_after_end (hdecay : fUnits a + fUnits d ≤ fUnits t) (hend : fUnits total ≤ fUnits t) :
    fUnits (envelope t a d s r total) = 0 := by
  have hr0 := hr.2.1
  have hstart : fUnits (fSub total r) ≤ fUnits t := isRounding_le (isRounding_fSub htotal.1 hr.1) ht.1 (by omega)
  rw [envelope_release ht ha hd hr htotal hdecay hstart]
  exact isRounding_zero (isRounding_fMul hs.1 (levelValue_releaseFraction ht hr htotal).1)
    (by rw [releaseFraction_after_end ht hr htotal hend, Int.mul_zero])

end Envelope

/-- Settles O20, by the four segments: the attack is a quotient of a smaller time by a larger one, the decay 1 less a
product of levels, the sustain a level and the release a product of levels. -/
theorem envelopeInUnitRange : Obligations.EnvelopeInUnitRange := by
  intro t a d s r total ht ha hd hs hr htotal
  rw [envelope_eq_ite ht ha hd hr htotal]
  split
  case isTrue hattack =>
    obtain ⟨hfin, hge, hpos⟩ := divisor_bounds ha.1
    exact levelValue_fDiv ht.1 hfin ht.2.1 (hattack.le.trans hge) hpos
  case isFalse hattack =>
    split
    case isTrue hdecay =>
      have hfrac := levelValue_decayFraction ht ha hd (not_lt.1 hattack) hdecay
      exact levelValue_one_sub (levelValue_fMul (levelValue_one_sub hs) hfrac)
    case isFalse =>
      split
      case isTrue => exact hs
      case isFalse => exact levelValue_fMul hs (levelValue_releaseFraction ht hr htotal)

/-- Settles O22: from the start of the release on the envelope is the sustain level times `releaseFraction`, which
never rises, and rounding the product keeps the order. -/
theorem envelopeReleaseNeverRises : Obligations.EnvelopeReleaseNeverRises := by
  intro t u a d s r total ht hu ha hd hs hr htotal hdecay hstart htu
  rw [envelope_release ht ha hd hr htotal hdecay hstart,
    envelope_release hu ha hd hr htotal (hdecay.trans htu) (hstart.trans htu)]
  exact isRounding_mono (isRounding_fMul hs.1 (levelValue_releaseFraction hu hr htotal).1)
    (isRounding_fMul hs.1 (levelValue_releaseFraction ht hr htotal).1)
    (Int.mul_le_mul_of_nonneg_right
      (Int.mul_le_mul_of_nonneg_left (releaseFraction_antitone ht hu hr htotal htu) hs.2.1)
      oneUnits_pos_int.le)

/-- Settles O21: before the end the time lies in the attack, at the start of the decay or on the sustain, after it
nothing of the release is left; with R = 0 the release starts at T exactly. -/
theorem envelopeAtSpecialTimes : Obligations.EnvelopeAtSpecialTimes := by
  intro t a d s r total ht ha hd hs hr htotal
  have hafter := envelope_after_end ht ha hd hs hr htotal
  have hsustain := envelope_sustain (s := s) ht ha hd hr htotal
  refine ⟨envelope_attack_start ht ha hd hr htotal, fun hdecay _ _ => ?_, hsustain,
    fun hdecay hend => hafter hdecay hend.le, envelope_decay_start ht ha hd hs hr htotal, fun ht0 ha0 hd0 hend => ?_,
    fun hr0 hdecay hend => ?_, fun _ hdecay hend => hafter hdecay hend⟩
  · exact envelope_after_end htotal ha hd hs hr htotal hdecay (le_refl _)
  · exact hsustain (by omega) (by omega)
  · have hstart : fUnits (fSub total r) = fUnits total :=
      isRounding_exact (isRounding_fSub htotal.1 hr.1) htotal.1 (by omega)
    exact hsustain hdecay (by omega)

/-! ### The command ENV (R150) -/

/-- The operands of ENV in the order of R150: the value, its greatest value and the byte address of its register. -/
def envDomains (s : State) : List (F64 × Nat × Nat) :=
  [(s.tIn, 2 ^ 32, 0x020), (s.envA, 2 ^ 32, 0x028), (s.envD, 2 ^ 32, 0x030), (s.envS, 1, 0x038),
    (s.envR, 2 ^ 32, 0x040), (s.envT, 2 ^ 32, 0x048)]

/-- The check of one operand, by value. -/
def domainCheck (c : F64 × Nat × Nat) : Bool × FaultRecord :=
  (decide (valueIn 0 (c.2.1 * oneUnits : Nat) c.1), badParam c.2.2)

theorem envCheck_eq (s : State) : envCheck s = firstFault ((envDomains s).map domainCheck) := by
  simp only [envCheck, timeOk_eq_decide, sustainOk_eq_decide, envDomains, domainCheck, List.map_cons, List.map_nil,
    Nat.one_mul]

/-- Settles O18: the six checks pass, and the effect is the envelope with its divisors written out. -/
theorem envWritesEnvelope : Obligations.EnvWritesEnvelope := by
  rintro s ⟨ht, ha, hd, hs, hr, htotal⟩
  have hcheck : commandCheck .env s = none := by
    simp only [commandCheck, envCheck, timeOk_eq_decide, sustainOk_eq_decide, decide_eq_true ht, decide_eq_true ha,
      decide_eq_true hd, decide_eq_true hs, decide_eq_true hr, decide_eq_true htotal, firstFault_cons, if_true,
      firstFault_nil]
  have hvalue := envelope_eq_ite (s := s.envS) ht ha hd hr htotal
  rw [decayFraction, releaseFraction, fMax_eq_ite ha.1 (by decide), fMax_eq_ite hd.1 (by decide),
    fMax_eq_ite hr.1 (by decide)] at hvalue
  rw [exec_eq, hcheck, runCommand_none]
  exact congrArg (fun v => Host.Outcome.next { s with result := v, running := none, done := true }) hvalue

/-- Settles O19: the checks before the operand pass, its own fails. -/
theorem envRejectsFirstBadOperand : Obligations.EnvRejectsFirstBadOperand := by
  intro s pre post x hi addr hlist hpre hbad
  have hcheck : commandCheck .env s = some (badParam addr) := by
    refine (envCheck_eq s).trans (firstFault_eq_some.2 ⟨pre.map domainCheck, post.map domainCheck, ?_, ?_⟩)
    · rw [envDomains, hlist, List.map_append, List.map_cons, domainCheck, decide_eq_false hbad]
    · exact List.forall_mem_map.2 fun c hc => decide_eq_true (hpre c hc)
  rw [exec_eq, hcheck, runCommand_some]
  rfl

end Sys2Proof.Machine

/-! PROOFS. The tone synthesizer (`42_tone.md`): its validation by value, where each note stands in SMP, and the size
of a sample. -/

namespace Sys2Proof.Machine

/-! ### Runs of elements and lists of notes -/

/-- Storing elements changes only the bytes these elements are stored in (R39; log 9). -/
theorem readByte_storeElems_outside (t : Table) (w : Nat) (vs : List Word) (s : State) {a : Nat}
    (h : ∀ j, j < vs.length → a < wordAddr t (w + j) ∨ wordAddr t (w + j) + tableBytes t ≤ a) :
    readByte (storeElems t w vs s) a = readByte s a := by
  induction vs generalizing w s with
  | nil => rfl
  | cons v vs ih =>
    have hrest : readByte (storeElems t (w + 1) vs (storeElem t w v s)) a = readByte (storeElem t w v s) a := by
      refine ih (w + 1) _ fun j hj => ?_
      rw [Nat.add_assoc, Nat.add_comm 1 j]
      exact h (j + 1) (Nat.succ_lt_succ hj)
    exact hrest.trans (readByte_storeElem_other t w v s (h 0 (Nat.succ_pos _)))

theorem readByte_storeElems_of_not_storedIn {t : Table} {vs : List Word} {a : Nat} (s : State)
    (h : ¬ storedIn t vs.length a) : readByte (storeElems t 0 vs s) a = readByte s a := by
  refine readByte_storeElems_outside t 0 vs s fun j hj => ?_
  rw [Nat.zero_add]
  by_contra hin
  exact h ⟨j, hj, by omega, by omega⟩

theorem readByte_storeSamples_of_not_storedIn {samples : List (BitVec 16)} {n : U32} {rng : NoiseState} {a : Nat}
    (s : State) (h : ¬ storedIn .smp samples.length a) :
    readByte (storeSamples samples n rng s) a = readByte s a :=
  (readByte_congr rfl rfl a).trans
    (readByte_storeElems_of_not_storedIn (vs := sampleWords samples) s (by rwa [sampleWords_length]))

/-- The end of a command writes no table. -/
theorem sampleAt_finish (s : State) (j : Nat) : sampleAt (finish s) j = sampleAt s j :=
  congrArg (BitVec.setWidth 16) (loadElem_congr (finish_mem s) (finish_resets s) .smp j)

/-- The numbers below `n`, cut at one of them. -/
theorem exists_range_eq_append_cons {k n : Nat} (h : k < n) : ∃ rest, List.range n = List.range k ++ k :: rest := by
  obtain ⟨m, rfl⟩ := Nat.exists_eq_add_of_lt h
  rw [Nat.add_assoc, List.range_add, List.range_succ_eq_map, List.map_cons, Nat.add_zero]
  exact ⟨_, rfl⟩

/-! ### The validation of TONE (R161), by value -/

theorem fUnits_fTwoM32 : fUnits fTwoM32 = (oneUnits / 2 ^ 32 : Nat) := by decide +kernel

theorem positiveOk_eq_decide (x : F64) : positiveOk x = decide (positiveValue x) := by
  rw [positiveOk, inDomain_eq_decide (by decide) (by decide), fUnits_fTwoM32, fUnits_fTwo32]

theorem isRest_iff (x : F64) : isRest x = true ↔ x = 0 := beq_iff_eq

theorem freqOk_eq_decide (x : F64) : freqOk x = decide (freqValue x) := by
  rw [freqOk, isRest, positiveOk_eq_decide, Bool.decide_or, Bool.beq_eq_decide_eq]

theorem srateOk_eq_decide (n : U32) : srateOk n = decide (rateValue n) := (Bool.decide_and ..).symm

/-- `capinfo(id, n)` as one number (R254). -/
theorem capInfo_eq {id : Nat} (n : Nat) (h : id < 2 ^ 8) :
    capInfo id n = BitVec.ofNat 64 (id * 2 ^ 56 + min n (2 ^ 56 - 1)) := by
  have hmin : min n (2 ^ 56 - 1) < 2 ^ 56 := by omega
  apply BitVec.eq_of_toNat_eq
  rw [capInfo, BitVec.toNat_append, BitVec.toNat_ofNat, BitVec.toNat_ofNat, BitVec.toNat_ofNat, Nat.mod_eq_of_lt h,
    Nat.mod_eq_of_lt hmin, ← Nat.shiftLeft_add_eq_or_of_lt hmin, Nat.shiftLeft_eq, Nat.mod_eq_of_lt (by omega)]

/-- The two checks of note `k` (R161 (5)). -/
def noteChecks (s : State) (k : Nat) : List (Bool × FaultRecord) :=
  [(freqOk (melFreq s k), badParam (wordAddr .mel (freqWord k))),
    (positiveOk (melBeats s k), badParam (wordAddr .mel (beatsWord k)))]

theorem toneNoteChecks_eq (s : State) : toneNoteChecks s = (List.range s.phraseLen.toNat).flatMap (noteChecks s) := rfl

theorem toneScalarChecks_eq (s : State) :
    toneScalarChecks s =
      [(decide (positiveValue s.bpm), badParam 0x050), (decide (rateValue s.srate), badParam 0x058),
        (decide (1 ≤ s.phraseLen.toNat), badParam 0x068),
        (decide (s.phraseLen.toNat ≤ s.build.caps.maxNotes), capacityFault 1 s.phraseLen.toNat)] := by
  rw [toneScalarChecks, positiveOk_eq_decide, srateOk_eq_decide, countOk]

theorem noteChecks_eq (s : State) (k : Nat) :
    noteChecks s k =
      [(decide (freqValue (melFreq s k)), badParam (wordAddr .mel (freqWord k))),
        (decide (positiveValue (melBeats s k)), badParam (wordAddr .mel (beatsWord k)))] := by
  rw [noteChecks, freqOk_eq_decide, positiveOk_eq_decide]

theorem firstFault_toneScalarChecks_iff (s : State) : firstFault (toneScalarChecks s) = none ↔ toneScalars s := by
  simp only [firstFault_eq_none, toneScalarChecks_eq, List.forall_mem_cons, List.not_mem_nil, false_imp_iff,
    implies_true, decide_eq_true_eq, and_true]

theorem firstFault_noteChecks_iff (s : State) (k : Nat) : firstFault (noteChecks s k) = none ↔ toneNote s k := by
  simp only [firstFault_eq_none, noteChecks_eq, List.forall_mem_cons, List.not_mem_nil, false_imp_iff, implies_true,
    decide_eq_true_eq, and_true]

theorem firstFault_flatMap_eq_none {l : List Nat} {checks : Nat → List (Bool × FaultRecord)} :
    firstFault (l.flatMap checks) = none ↔ ∀ k ∈ l, firstFault (checks k) = none := by
  simp only [firstFault_eq_none, List.forall_mem_flatMap]

theorem firstFault_toneNoteChecks_iff (s : State) :
    firstFault (toneNoteChecks s) = none ↔ ∀ k, k < s.phraseLen.toNat → toneNote s k := by
  simp only [toneNoteChecks_eq, firstFault_flatMap_eq_none, firstFault_noteChecks_iff, List.mem_range]

/-- The first note that fails a check decides the fault of check (5). -/
theorem firstFault_toneNoteChecks_of_first {s : State} {k : Nat} {f : FaultRecord} (hk : k < s.phraseLen.toNat)
    (hbefore : ∀ j, j < k → toneNote s j) (hf : firstFault (noteChecks s k) = some f) :
    firstFault (toneNoteChecks s) = some f := by
  have hpass : firstFault ((List.range k).flatMap (noteChecks s)) = none := by
    simpa only [firstFault_flatMap_eq_none, firstFault_noteChecks_iff, List.mem_range] using hbefore
  obtain ⟨rest, hrange⟩ := exists_range_eq_append_cons hk
  rw [toneNoteChecks_eq, hrange, List.flatMap_append, List.flatMap_cons, firstFault_append, hpass, firstFault_append,
    hf]

theorem firstFault_toneSizeChecks (s : State) :
    firstFault (toneSizeChecks s) =
      if toneTotal s ≤ s.build.caps.maxSamples then none else some (capacityFault 3 (toneTotal s)) := by
  simp [toneSizeChecks]

/-! The three parts of the validation, in their order. -/

theorem toneCheck_of_scalar {s : State} {f : FaultRecord} (h : firstFault (toneScalarChecks s) = some f) :
    toneCheck s = some f := by
  rw [toneCheck, h]

theorem toneCheck_of_note {s : State} {f : FaultRecord} (hscalars : toneScalars s)
    (h : firstFault (toneNoteChecks s) = some f) : toneCheck s = some f := by
  rw [toneCheck, (firstFault_toneScalarChecks_iff s).2 hscalars, h]

theorem toneCheck_of_size {s : State} (hscalars : toneScalars s)
    (hnotes : ∀ k, k < s.phraseLen.toNat → toneNote s k) : toneCheck s = firstFault (toneSizeChecks s) := by
  rw [toneCheck, (firstFault_toneScalarChecks_iff s).2 hscalars, (firstFault_toneNoteChecks_iff s).2 hnotes]

/-- The validation passes exactly on the operands R161 admits. -/
theorem toneCheck_eq_none_iff (s : State) : toneCheck s = none ↔ toneReady s := by
  have hsize : firstFault (toneSizeChecks s) = none ↔ toneTotal s ≤ s.build.caps.maxSamples := by
    rw [firstFault_toneSizeChecks]
    split <;> simp_all
  rw [toneReady, ← hsize, ← firstFault_toneScalarChecks_iff, ← firstFault_toneNoteChecks_iff, toneCheck_eq,
    firstFault_append, firstFault_append]
  generalize firstFault (toneScalarChecks s) = scalar
  generalize firstFault (toneNoteChecks s) = note
  cases scalar <;> cases note <;> simp

/-! The two ends of TONE. -/

/-- What TONE leaves when it succeeds (R160). -/
def toneResult (s : State) : State :=
  finish (storeSamples (toneSamples s) (BitVec.ofNat 32 (toneTotal s)) s.rng s)

theorem exec_tone_fault {s : State} {f : FaultRecord} (h : toneCheck s = some f) :
    exec .tone s = .next (raiseFault f s) := by
  rw [exec_eq, commandCheck, h, runCommand_some]

theorem exec_tone_ready {s : State} (h : toneReady s) : exec .tone s = .next (toneResult s) := by
  rw [exec_eq, commandCheck, (toneCheck_eq_none_iff s).2 h, runCommand_none, commandEffect, toneEffect_eq, toneResult]

theorem exec_tone_done {s t : State} (h : exec .tone s = .next t) (hdone : t.done = true) :
    toneReady s ∧ t = toneResult s := by
  obtain ⟨hcheck, rfl⟩ | ⟨f, -, rfl⟩ := exec_cases h
  · exact ⟨(toneCheck_eq_none_iff s).1 hcheck, by rw [commandEffect, toneEffect_eq, toneResult]⟩
  · simp at hdone

/-- Without samples TONE stores none. -/
theorem toneResult_empty {s : State} (h : toneTotal s = 0) :
    toneResult s = { s with smpLen := 0, running := none, done := true } := by
  have hnil : toneSamples s = [] := List.eq_nil_of_length_eq_zero ((toneSamples_length s).trans h)
  rw [toneResult, hnil, h]
  rfl

/-- Settles O24: the checks before the failing one pass, and a total of 0 is within every capacity. -/
theorem toneRejectsFirstBadOperand : Obligations.ToneRejectsFirstBadOperand := by
  intro s total htotal
  obtain rfl : total = toneTotal s := htotal
  refine ⟨fun hbpm => ?_, fun hbpm hrate => ?_, fun hbpm hrate hlen => ?_, fun hbpm hrate hlen hcap => ?_,
    fun k hscalars hk hbefore => ⟨fun hfreq => ?_, fun hfreq hbeats => ?_⟩, fun hscalars hnotes hcap => ?_,
    fun hscalars hnotes hzero => ?_⟩
  · refine exec_tone_fault (toneCheck_of_scalar (f := badParam 0x050) ?_)
    rw [toneScalarChecks_eq, decide_eq_false hbpm]
    rfl
  · refine exec_tone_fault (toneCheck_of_scalar (f := badParam 0x058) ?_)
    rw [toneScalarChecks_eq, decide_eq_true hbpm, decide_eq_false hrate]
    rfl
  · refine exec_tone_fault (toneCheck_of_scalar (f := badParam 0x068) ?_)
    rw [toneScalarChecks_eq, decide_eq_true hbpm, decide_eq_true hrate, hlen]
    rfl
  · have hinfo : capInfo 1 s.phraseLen.toNat = BitVec.ofNat 64 (1 * 2 ^ 56 + s.phraseLen.toNat) := by
      have hlt := s.phraseLen.isLt
      rw [capInfo_eq _ (by decide), Nat.min_eq_left (by omega)]
    rw [← hinfo]
    refine exec_tone_fault (toneCheck_of_scalar (f := capacityFault 1 s.phraseLen.toNat) ?_)
    rw [toneScalarChecks_eq, decide_eq_true hbpm, decide_eq_true hrate, decide_eq_true hlen,
      decide_eq_false (Nat.not_le.2 hcap)]
    rfl
  · have haddr : wordAddr .mel (freqWord k) = 0x10000000 + 16 * k := by
      simp only [wordAddr, freqWord, tableRegion]
      omega
    rw [← haddr]
    refine exec_tone_fault (toneCheck_of_note hscalars (firstFault_toneNoteChecks_of_first hk hbefore ?_))
    rw [noteChecks_eq, decide_eq_false hfreq]
    rfl
  · have haddr : wordAddr .mel (beatsWord k) = 0x10000000 + 16 * k + 8 := by
      simp only [wordAddr, beatsWord, tableRegion]
      omega
    rw [← haddr]
    refine exec_tone_fault (toneCheck_of_note hscalars (firstFault_toneNoteChecks_of_first hk hbefore ?_))
    rw [noteChecks_eq, decide_eq_true hfreq, decide_eq_false hbeats]
    rfl
  · rw [← capInfo_eq _ (by decide)]
    refine exec_tone_fault (f := capacityFault 3 (toneTotal s)) ((toneCheck_of_size hscalars hnotes).trans ?_)
    rw [firstFault_toneSizeChecks, if_neg (Nat.not_le.2 hcap)]
  · rw [exec_tone_ready ⟨hscalars, hnotes, by omega⟩, toneResult_empty hzero]

/-! ### The samples of the notes (R160, R162) -/

/-- The sample at place `i` of note `k` (R160). -/
def noteSample (s : State) (k i : Nat) : BitVec 16 :=
  toneSample (sinOf s.build.sin) (melFreq s k) (toneSeconds s k) (srateF s) i

theorem noteSamples_eq (s : State) (k : Nat) : noteSamples s k = (List.range (toneCount s k)).map (noteSample s k) :=
  rfl

/-- Note `k` comes after the samples of all notes before it. -/
theorem getElem?_toneSamples {s : State} {k i : Nat} (hk : k < s.phraseLen.toNat) (hi : i < toneCount s k) :
    (toneSamples s)[noteStart s k + i]? = some (noteSample s k i) := by
  have hbefore : ((List.range k).flatMap (noteSamples s)).length = noteStart s k := by
    simp [List.length_flatMap, noteSamples, noteStart]
  have hlen : i < (noteSamples s k).length := by simpa [noteSamples] using hi
  obtain ⟨rest, hrange⟩ := exists_range_eq_append_cons hk
  rw [toneSamples, hrange, List.flatMap_append, List.flatMap_cons,
    List.getElem?_append_right (by rw [hbefore]; exact Nat.le_add_right _ _), hbefore, Nat.add_sub_cancel_left,
    List.getElem?_append_left hlen, noteSamples_eq, List.getElem?_map, List.getElem?_range hi, Option.map_some]

theorem sampleAt_toneResult_eq_getElem {s : State} {j : Nat} (hj : j < (toneSamples s).length) :
    sampleAt (toneResult s) j = (toneSamples s)[j] := by
  rw [toneResult, sampleAt_finish, sampleAt_storeSamples]

theorem sampleAt_toneResult {s : State} {k i : Nat} (hk : k < s.phraseLen.toNat) (hi : i < toneCount s k) :
    sampleAt (toneResult s) (noteStart s k + i) = noteSample s k i := by
  obtain ⟨hlt, hget⟩ := List.getElem?_eq_some_iff.1 (getElem?_toneSamples hk hi)
  rw [sampleAt_toneResult_eq_getElem hlt, hget]

/-- Every sample TONE counts in SMP_LEN belongs to a note. -/
theorem exists_noteSample_of_lt_smpLen {s : State} {j : Nat} (hj : j < (toneResult s).smpLen.toNat) :
    ∃ k i, k < s.phraseLen.toNat ∧ i < toneCount s k ∧ sampleAt (toneResult s) j = noteSample s k i := by
  have hlt : j < (toneSamples s).length := by
    rw [toneSamples_length]
    exact Nat.lt_of_lt_of_le hj (toNat_ofNat_le le_rfl)
  have hmem := List.getElem_mem hlt
  simp only [toneSamples, noteSamples_eq, List.mem_flatMap, List.mem_map, List.mem_range] at hmem
  obtain ⟨k, hk, i, hi, hsample⟩ := hmem
  exact ⟨k, i, hk, hi, (sampleAt_toneResult_eq_getElem hlt).trans hsample.symm⟩

/-! ### The size of rounded results (R120): an operation on smaller magnitudes gives a smaller magnitude -/

theorem fIsFinite_of_fMag_le {x b : F64} (hb : fIsFinite b = true) (h : fMag x ≤ fMag b) : fIsFinite x = true :=
  decide_eq_true (Nat.lt_of_le_of_lt h (of_decide_eq_true hb))

section Magnitudes
variable {x y a b : F64} (ha : fIsFinite a = true) (hb : fIsFinite b = true) (hxa : fMag x ≤ fMag a)
include ha hb hxa

theorem fMag_fMul_le (hyb : fMag y ≤ fMag b) : fMag (fMul x y) ≤ fMag (fMul a b) := by
  rw [fMul_eq_fRound (fIsFinite_of_fMag_le ha hxa) (fIsFinite_of_fMag_le hb hyb), fMul_eq_fRound ha hb, fMag_fRound,
    fMag_fRound]
  exact roundMag_mono oneUnits_pos oneUnits_pos
    (Nat.mul_le_mul_right _ (Nat.mul_le_mul (magUnits_le_iff.2 hxa) (magUnits_le_iff.2 hyb)))

theorem fMag_fAdd_le (hyb : fMag y ≤ fMag b) (ha0 : 0 ≤ fUnits a) (hb0 : 0 ≤ fUnits b) :
    fMag (fAdd x y) ≤ fMag (fAdd a b) := by
  rw [fAdd_eq_fRound (fIsFinite_of_fMag_le ha hxa) (fIsFinite_of_fMag_le hb hyb), fAdd_eq_fRound ha hb, fMag_fRound,
    fMag_fRound]
  rw [← magUnits_le_iff, ← natAbs_fUnits, ← natAbs_fUnits] at hxa hyb
  exact roundMag_mono Nat.one_pos Nat.one_pos (Nat.mul_le_mul_right _ (by omega))

theorem fMag_fDiv_le (hy : fIsFinite y = true) (hby : fMag b ≤ fMag y) (hb0 : fUnits b ≠ 0) :
    fMag (fDiv x y) ≤ fMag (fDiv a b) := by
  have hbpos := magUnits_pos hb0
  have hypos : 0 < magUnits (fMag y) := Nat.lt_of_lt_of_le hbpos (magUnits_le_iff.2 hby)
  have hy0 : fUnits y ≠ 0 := by
    rw [← natAbs_fUnits] at hypos
    omega
  rw [fDiv_eq_fRound (fIsFinite_of_fMag_le ha hxa) hy hy0, fDiv_eq_fRound ha hb hb0, fMag_fRound, fMag_fRound]
  exact roundMag_mono hypos hbpos
    (Nat.mul_le_mul (Nat.mul_le_mul_right _ (magUnits_le_iff.2 hxa)) (magUnits_le_iff.2 hby))

end Magnitudes

theorem isRounding_nonneg {v : Int} {d : Nat} {r : F64} (hr : isRounding v d r) (h : 0 ≤ v) : 0 ≤ fUnits r := by
  have hle := le_isRounding (x := f0) hr (by decide) (by rwa [fUnits_f0, Int.zero_mul])
  rwa [fUnits_f0] at hle

theorem fMag_le_of_fUnits_le {x y : F64} (hx : 0 ≤ fUnits x) (h : fUnits x ≤ fUnits y) : fMag x ≤ fMag y := by
  rw [← magUnits_le_iff, ← natAbs_fUnits, ← natAbs_fUnits]
  omega

theorem fMag_le_f1_of_unitValue {x : F64} (h : unitValue x) : fMag x ≤ fMag f1 := by
  obtain ⟨-, hge, hle⟩ := h
  rw [← magUnits_le_iff, magUnits_f1, ← natAbs_fUnits]
  omega

theorem unitValue_of_levelValue {x : F64} (h : levelValue x) : unitValue x := by
  obtain ⟨hfin, hge, hle⟩ := h
  exact ⟨hfin, by omega, hle⟩

/-! ### The times of a note (R162, R165) -/

/-- Rounding to an integer takes off less than 1. -/
theorem fUnits_le_rneInt_succ (x : F64) : fUnits x ≤ ((rneInt x + 1) * oneUnits : Nat) := by
  obtain ⟨hle, -, -⟩ := rneDiv_near (fUnits x).natAbs oneUnits_pos
  rw [rneInt, Nat.succ_mul]
  omega

theorem positiveValue_pos {x : F64} (h : positiveValue x) : 0 < fUnits x := by
  have hpos : (0 : Int) < (oneUnits / 2 ^ 32 : Nat) := by decide +kernel
  exact lt_of_lt_of_le hpos h.2.1

theorem fMag_le_fTwo32 {x : F64} (h : positiveValue x) : fMag x ≤ fMag fTwo32 :=
  fMag_le_of_fUnits_le (positiveValue_pos h).le (by rw [fUnits_fTwo32]; exact h.2.2)

theorem fMag_fTwoM32_le {x : F64} (h : positiveValue x) : fMag fTwoM32 ≤ fMag x :=
  fMag_le_of_fUnits_le (by decide +kernel) (by rw [fUnits_fTwoM32]; exact h.2.1)

/-- A duration is a finite number, not negative. -/
theorem noteSeconds_bounds {bpm beats : F64} (hbpm : positiveValue bpm) (hbeats : positiveValue beats) :
    fIsFinite (noteSeconds bpm beats) = true ∧ 0 ≤ fUnits (noteSeconds bpm beats) := by
  have hbpmPos := positiveValue_pos hbpm
  have hbeatsPos := positiveValue_pos hbeats
  have hbeat : fMag (fDiv f60 bpm) ≤ fMag (fDiv f60 fTwoM32) :=
    fMag_fDiv_le (by decide) (by decide) le_rfl hbpm.1 (fMag_fTwoM32_le hbpm) (by decide +kernel)
  have hbeatMax : fIsFinite (fDiv f60 fTwoM32) = true := by decide +kernel
  have hbeatFin := fIsFinite_of_fMag_le hbeatMax hbeat
  have hbeat0 : 0 ≤ fUnits (fDiv f60 bpm) :=
    isRounding_nonneg (isRounding_fDiv (by decide) hbpm.1 hbpmPos) (by decide +kernel)
  have hmax : fIsFinite (fMul fTwo32 (fDiv f60 fTwoM32)) = true := by decide +kernel
  unfold noteSeconds
  exact ⟨fIsFinite_of_fMag_le hmax (fMag_fMul_le (by decide) hbeatMax (fMag_le_fTwo32 hbeats) hbeat),
    isRounding_nonneg (isRounding_fMul hbeats.1 hbeatFin) (Int.mul_nonneg hbeatsPos.le hbeat0)⟩

theorem srateF_exact (s : State) :
    fIsFinite (srateF s) = true ∧ fUnits (srateF s) = s.srate.toNat * oneUnits :=
  ofNatF_exact (by have := s.srate.isLt; omega)

theorem srateF_ge_one {s : State} (h : rateValue s.srate) : (oneUnits : Int) ≤ fUnits (srateF s) := by
  obtain ⟨-, hval⟩ := srateF_exact s
  rw [hval]
  exact_mod_cast Nat.le_mul_of_pos_left oneUnits h.1

theorem toneCount_le_toneTotal {s : State} {k : Nat} (hk : k < s.phraseLen.toNat) : toneCount s k ≤ toneTotal s :=
  List.le_sum_of_mem (List.mem_map_of_mem (List.mem_range.2 hk))

/-- A time divided by 1.0 or more is a time. -/
theorem timeValue_fDiv {x y : F64} (hx : timeValue x) (hy : fIsFinite y = true) (hone : (oneUnits : Int) ≤ fUnits y) :
    timeValue (fDiv x y) := by
  obtain ⟨hfin, h0, hle⟩ := hx
  have hpos : 0 < fUnits y := oneUnits_pos_int.trans_le hone
  have hquot := isRounding_between (lo := f0) (hi := fTwo32) (isRounding_fDiv hfin hy hpos) (by decide) (by decide)
    (by rw [fUnits_f0, Int.zero_mul]; exact Int.mul_nonneg h0 oneUnits_pos_int.le)
    (by
      rw [fUnits_fTwo32, Int.natAbs_of_nonneg hpos.le]
      exact Int.mul_le_mul hle hone oneUnits_pos_int.le (Int.natCast_nonneg _))
  rwa [fUnits_f0, fUnits_fTwo32] at hquot

theorem timeValue_ofNatF {i : Nat} (h : i ≤ 2 ^ 32) : timeValue (ofNatF i) := by
  obtain ⟨hfin, hval⟩ := ofNatF_exact (n := i) (by omega)
  rw [timeValue, valueIn, hval]
  exact ⟨hfin, Int.mul_nonneg (Int.natCast_nonneg _) oneUnits_pos_int.le,
    by exact_mod_cast Nat.mul_le_mul_right oneUnits h⟩

/-- The release of a note, by value (R165). -/
theorem toneRelease_eq_ite {dur : F64} (hfin : fIsFinite dur = true) :
    toneRelease dur = if fUnits (fDiv dur f2) < fUnits f0_12 then fDiv dur f2 else f0_12 := by
  have hpos : 0 < fUnits f2 := by decide +kernel
  have hnan := isRounding_not_nan (isRounding_fDiv hfin (by decide) hpos)
  rw [toneRelease, fMin, fLt_of_not_nan hnan (by decide)]
  simp only [decide_eq_true_eq]

theorem timeValue_toneRelease {dur : F64} (h : timeValue dur) : timeValue (toneRelease dur) := by
  rw [toneRelease_eq_ite h.1]
  split
  case isTrue => exact timeValue_fDiv h (by decide) (by decide +kernel)
  case isFalse => decide +kernel

/-- A note of a render that fits SMP lasts at most as many seconds as it has samples, up to rounding. -/
theorem timeValue_toneSeconds {s : State} {k : Nat} (hwf : s.build.caps.wf = true) (h : toneReady s)
    (hk : k < s.phraseLen.toNat) : timeValue (toneSeconds s k) := by
  obtain ⟨⟨hbpm, hrate, -, -⟩, hnotes, htotal⟩ := h
  obtain ⟨-, hbeats⟩ := hnotes k hk
  obtain ⟨hfin, h0⟩ : fIsFinite (toneSeconds s k) = true ∧ 0 ≤ fUnits (toneSeconds s k) :=
    noteSeconds_bounds hbpm hbeats
  obtain ⟨hrateFin, -⟩ := srateF_exact s
  have hcap : s.build.caps.maxSamples ≤ 2 ^ 25 := tableWords_le hwf .smp
  have hcount := toneCount_le_toneTotal hk
  have hround : fUnits (fMul (toneSeconds s k) (srateF s)) ≤ ((toneCount s k + 1) * oneUnits : Nat) := by
    rw [toneCount, sampleCount]
    exact fUnits_le_rneInt_succ _
  have hgrow : fUnits (toneSeconds s k) ≤ fUnits (fMul (toneSeconds s k) (srateF s)) :=
    le_isRounding (isRounding_fMul hfin hrateFin) hfin (Int.mul_le_mul_of_nonneg_left (srateF_ge_one hrate) h0)
  refine ⟨hfin, h0, hgrow.trans (hround.trans ?_)⟩
  exact Int.ofNat_le.2 (Nat.mul_le_mul_right oneUnits (by omega))

theorem timeValue_sampleTime {s : State} {k i : Nat} (hwf : s.build.caps.wf = true) (h : toneReady s)
    (hk : k < s.phraseLen.toNat) (hi : i < toneCount s k) : timeValue (fDiv (ofNatF i) (srateF s)) := by
  obtain ⟨⟨-, hrate, -, -⟩, -, htotal⟩ := h
  have hcap : s.build.caps.maxSamples ≤ 2 ^ 25 := tableWords_le hwf .smp
  have hcount := toneCount_le_toneTotal hk
  exact timeValue_fDiv (timeValue_ofNatF (by omega)) (srateF_exact s).1 (srateF_ge_one hrate)

/-! ### The command TONE (R160) -/

/-- A sample of a note, with the release of the envelope by value (R160, R163, R165). -/
theorem noteSample_eq_ite {s : State} {k : Nat} (i : Nat) (hbpm : positiveValue s.bpm)
    (hbeats : positiveValue (melBeats s k)) :
    noteSample s k i =
      if melFreq s k = 0 then 0
      else
        quant (fMul (fMul
          (toneWave (sinOf s.build.sin) (fMul (fMul fTwoPi (melFreq s k)) (fDiv (ofNatF i) (srateF s))))
          (envelope (fDiv (ofNatF i) (srateF s)) f0_01 f0_08 f0_65
            (if fUnits (fDiv (toneSeconds s k) f2) < fUnits f0_12 then fDiv (toneSeconds s k) f2 else f0_12)
            (toneSeconds s k))) f0_7) := by
  have hfin : fIsFinite (toneSeconds s k) = true := (noteSeconds_bounds hbpm hbeats).1
  simp only [noteSample, toneSample, toneValue, toneRelease_eq_ite hfin, isRest_iff]

theorem toNat_smpLen_toneResult {s : State} (hwf : s.build.caps.wf = true) (h : toneReady s) :
    (toneResult s).smpLen.toNat = toneTotal s := by
  have hcap : s.build.caps.maxSamples ≤ 2 ^ 25 := tableWords_le hwf .smp
  obtain ⟨-, -, htotal⟩ := h
  rw [toneResult, finish_smpLen, storeSamples_smpLen, BitVec.toNat_ofNat]
  omega

/-- TONE changes the samples, their number and the flags of its end (R160). -/
theorem toneResult_frame (s : State) :
    toneResult s =
      { s with mem := (toneResult s).mem, smpLen := (toneResult s).smpLen, running := none, done := true } := by
  unfold toneResult storeSamples
  rw [storeElems_eq]
  rfl

/-- Settles O23: the validation passes, and each part of the statement is a fact about `toneResult`. -/
theorem toneRendersNotes : Obligations.ToneRendersNotes := by
  intro s hwf hready
  refine ⟨toneResult s, exec_tone_ready hready, toneResult_frame s, toNat_smpLen_toneResult hwf hready, ?_,
    fun a ha => ?_⟩
  · intro k i hk hi dur t0 w wave e hdur ht0 hw hwave he
    obtain ⟨⟨hbpm, -⟩, hnotes, -⟩ := hready
    rw [he, hwave, hw, ht0, hdur, sampleAt_toneResult hk hi, noteSample_eq_ite i hbpm (hnotes k hk).2]
    rfl
  · rw [toneResult, readByte_congr (finish_mem _) (finish_resets _)]
    exact readByte_storeSamples_of_not_storedIn s (by rwa [toneSamples_length])

/-! ### The size of a sample (R164)

Every operation of R160 keeps magnitudes in order, so a sample is at most as large as the one in which the sine is a
constant `c` not below its magnitude and the envelope is 1.0. With `c` = 1.0 this is the headroom, with `c` = 0.0 the
silent start. -/

/-- The value of a note whose sine is `c` throughout, at envelope 1.0. -/
def tonePeak (c : F64) : F64 := fMul (fMul (toneWave (fun _ => c) f0) f1) f0_7

theorem levelValue_f0_62 : levelValue f0_62 := by decide +kernel
theorem levelValue_f0_28 : levelValue f0_28 := by decide +kernel
theorem levelValue_f0_10 : levelValue f0_10 := by decide +kernel
theorem levelValue_f0 : levelValue f0 := by decide +kernel
theorem levelValue_f1 : levelValue f1 := by decide +kernel

theorem levelValue_fSignum {c : F64} (h : levelValue c) : levelValue (fSignum c) := by
  obtain ⟨hfin, h0, -⟩ := h
  rw [fSignum_eq_ite hfin, if_neg (not_lt.2 h0)]
  split
  case isTrue => exact levelValue_f1
  case isFalse => exact levelValue_f0

theorem fMag_fSignum {v : F64} (h : fIsFinite v = true) :
    fMag (fSignum v) = if fUnits v = 0 then 0 else fMag f1 := by
  rw [fSignum_eq_ite h]
  obtain hneg | hzero | hpos := lt_trichotomy (fUnits v) 0
  · rw [if_neg hneg.not_gt, if_pos hneg, if_neg hneg.ne]
    decide
  · rw [hzero]
    decide
  · rw [if_pos hpos, if_neg hpos.ne']

theorem fMag_fSignum_le {v c : F64} (hc : fIsFinite c = true) (h : fMag v ≤ fMag c) :
    fMag (fSignum v) ≤ fMag (fSignum c) := by
  rw [fMag_fSignum (fIsFinite_of_fMag_le hc h), fMag_fSignum hc]
  split
  case isTrue => exact Nat.zero_le _
  case isFalse hv =>
    rw [fUnits_eq_zero_iff] at hv
    have hc0 : fUnits c ≠ 0 := mt (fUnits_eq_zero_iff c).1 (by omega)
    rw [if_neg hc0]

theorem unitValue_sinOf (i : Impl) (x : F64) : unitValue (sinOf i x) := by
  cases i with
  | reference => exact unitValue_lawfulSin _ x
  | other k => exact unitValue_lawfulSin _ x

theorem fIsFinite_of_zero {x : F64} (h : fUnits x = 0) : fIsFinite x = true := fIsFinite_of_natAbs_le (by omega)

/-- Law L2, by magnitude. -/
theorem fMag_sinOf_zero (i : Impl) {x : F64} (h : fUnits x = 0) : fMag (sinOf i x) = fMag f0 := by
  obtain ⟨-, hzero, -⟩ := sineAndNoiseLaws i x 0 (fIsFinite_of_zero h)
  rw [hzero h, (fUnits_eq_zero_iff x).1 h]
  rfl

/-- The local time of a first sample is 0 (R160). -/
theorem fUnits_startTime {s : State} (hrate : rateValue s.srate) : fUnits (fDiv (ofNatF 0) (srateF s)) = 0 := by
  obtain ⟨hfin, hval⟩ := ofNatF_exact (Nat.zero_le (2 ^ 53))
  rw [Nat.cast_zero, Int.zero_mul] at hval
  exact isRounding_zero (isRounding_fDiv hfin (srateF_exact s).1 (oneUnits_pos_int.trans_le (srateF_ge_one hrate)))
    (by rw [hval, Int.zero_mul])

section Peak
variable {c : F64} (hc : levelValue c)
include hc

/-- The sum of two levels is finite and not negative. -/
theorem fAdd_level_bounds {d : F64} (hd : levelValue d) :
    fIsFinite (fAdd c d) = true ∧ 0 ≤ fUnits (fAdd c d) := by
  have hmax : fIsFinite (fAdd f1 f1) = true := by decide +kernel
  have hone : (0 : Int) ≤ fUnits f1 := by decide +kernel
  have hle := fMag_fAdd_le (by decide) (by decide) (fMag_le_f1_of_unitValue (unitValue_of_levelValue hc))
    (fMag_le_f1_of_unitValue (unitValue_of_levelValue hd)) hone hone
  exact ⟨fIsFinite_of_fMag_le hmax hle, isRounding_nonneg (isRounding_fAdd hc.1 hd.1) (Int.add_nonneg hc.2.1 hd.2.1)⟩

theorem fMag_toneWave_le {sin : F64 → F64} {w : F64} (hw : fMag (sin w) ≤ fMag c)
    (h2w : fMag (sin (fMul f2 w)) ≤ fMag c) : fMag (toneWave sin w) ≤ fMag (toneWave (fun _ => c) f0) := by
  have hsign := levelValue_fSignum hc
  have hfirst := levelValue_fMul levelValue_f0_62 hc
  have hsecond := levelValue_fMul levelValue_f0_28 hc
  have hthird := levelValue_fMul levelValue_f0_10 hsign
  obtain ⟨hsumFin, hsum0⟩ := fAdd_level_bounds hfirst hsecond
  exact fMag_fAdd_le hsumFin hthird.1
    (fMag_fAdd_le hfirst.1 hsecond.1 (fMag_fMul_le levelValue_f0_62.1 hc.1 le_rfl hw)
      (fMag_fMul_le levelValue_f0_28.1 hc.1 le_rfl h2w) hfirst.2.1 hsecond.2.1)
    (fMag_fMul_le levelValue_f0_10.1 hsign.1 le_rfl (fMag_fSignum_le hc.1 hw)) hsum0 hthird.2.1

/-- No step to a peak overflows, as those to the peak of the constant 1.0 do not. -/
theorem tonePeak_steps_finite :
    fIsFinite (toneWave (fun _ => c) f0) = true ∧ fIsFinite (fMul (toneWave (fun _ => c) f0) f1) = true ∧
      fIsFinite (tonePeak c) = true := by
  have hone : fMag c ≤ fMag f1 := fMag_le_f1_of_unitValue (unitValue_of_levelValue hc)
  have hwaveMax : fIsFinite (toneWave (fun _ => f1) f0) = true := by decide +kernel
  have hprodMax : fIsFinite (fMul (toneWave (fun _ => f1) f0) f1) = true := by decide +kernel
  have hpeakMax : fIsFinite (tonePeak f1) = true := by decide +kernel
  have hwave := fMag_toneWave_le (sin := fun _ => c) (w := f0) levelValue_f1 hone hone
  have hprod := fMag_fMul_le (y := f1) hwaveMax levelValue_f1.1 hwave le_rfl
  exact ⟨fIsFinite_of_fMag_le hwaveMax hwave, fIsFinite_of_fMag_le hprodMax hprod,
    fIsFinite_of_fMag_le hpeakMax (fMag_fMul_le (y := f0_7) hprodMax (by decide) hprod le_rfl)⟩

/-- The value of a note is no larger than the peak of its sine. -/
theorem fMag_toneValue_le {sin : F64 → F64} {f dur t : F64} (hw : fMag (sin (fMul (fMul fTwoPi f) t)) ≤ fMag c)
    (h2w : fMag (sin (fMul f2 (fMul (fMul fTwoPi f) t))) ≤ fMag c)
    (he : levelValue (envelope t f0_01 f0_08 f0_65 (toneRelease dur) dur)) :
    fMag (toneValue sin f dur t) ≤ fMag (tonePeak c) := by
  obtain ⟨hwaveFin, hprodFin, -⟩ := tonePeak_steps_finite hc
  have hprod := fMag_fMul_le hwaveFin levelValue_f1.1 (fMag_toneWave_le hc hw h2w)
    (fMag_le_f1_of_unitValue (unitValue_of_levelValue he))
  exact fMag_fMul_le hprodFin (by decide) hprod le_rfl

end Peak

theorem fMag_fClamp_le {x : F64} (hx : fIsFinite x = true) : fMag (fClamp x fm1 f1) ≤ fMag x := by
  rw [fClamp_eq_ite hx (by decide) (by decide), fUnits_f1, fUnits_fm1, ← magUnits_le_iff]
  split
  case isTrue hlow =>
    rw [← natAbs_fUnits, ← natAbs_fUnits, fUnits_fm1]
    omega
  case isFalse =>
    split
    case isTrue hhigh =>
      rw [← natAbs_fUnits, ← natAbs_fUnits, fUnits_f1]
      omega
    case isFalse => exact le_rfl

/-- `quant` of a number of the size of `b` is within the truncation of `b` times 32767.0 (R125). -/
theorem natAbs_toInt_quant_le {x b : F64} (hb : fIsFinite b = true) (h : fMag x ≤ fMag b) :
    (quant x).toInt.natAbs ≤ magUnits (fMag (fMul b f32767)) / oneUnits := by
  have hx := fIsFinite_of_fMag_le hb h
  have hmul := fMag_fMul_le (y := f32767) hb (by decide) ((fMag_fClamp_le hx).trans h) le_rfl
  rw [toInt_quant hx, quantInt, fTrunc, Int.natAbs_tdiv, natAbs_fUnits, Int.natAbs_natCast]
  exact Nat.div_le_div_right (magUnits_le_iff.2 hmul)

/-- The phase of note `k` at its sample `i`: `w` of R160. -/
def notePhase (s : State) (k i : Nat) : F64 := fMul (fMul fTwoPi (melFreq s k)) (fDiv (ofNatF i) (srateF s))

section Sample
variable {s : State} {k i : Nat} (hwf : s.build.caps.wf = true) (hready : toneReady s) (hk : k < s.phraseLen.toNat)
  (hi : i < toneCount s k)

theorem noteSample_rest (h : melFreq s k = 0) : noteSample s k i = 0 := by
  rw [noteSample, toneSample, if_pos ((isRest_iff _).2 h)]

include hwf hready hk hi

/-- The envelope of a note is between 0 and 1: its times are in the domain of R256 (R165). -/
theorem levelValue_toneEnvelope :
    levelValue (envelope (fDiv (ofNatF i) (srateF s)) f0_01 f0_08 f0_65 (toneRelease (toneSeconds s k))
      (toneSeconds s k)) := by
  have hdur := timeValue_toneSeconds hwf hready hk
  exact envelopeInUnitRange _ _ _ _ _ _ (timeValue_sampleTime hwf hready hk hi) (by decide +kernel) (by decide +kernel)
    (by decide +kernel) (timeValue_toneRelease hdur) hdur

theorem natAbs_noteSample_le {c : F64} (hc : levelValue c)
    (hw : fMag (sinOf s.build.sin (notePhase s k i)) ≤ fMag c)
    (h2w : fMag (sinOf s.build.sin (fMul f2 (notePhase s k i))) ≤ fMag c) :
    (noteSample s k i).toInt.natAbs ≤ magUnits (fMag (fMul (tonePeak c) f32767)) / oneUnits := by
  have hvalue := fMag_toneValue_le hc hw h2w (levelValue_toneEnvelope hwf hready hk hi)
  obtain ⟨-, -, hpeak⟩ := tonePeak_steps_finite hc
  unfold noteSample toneSample
  split
  case isTrue => exact Nat.zero_le _
  case isFalse => exact natAbs_toInt_quant_le hpeak hvalue

/-- Law L1: no sine exceeds 1.0. -/
theorem natAbs_noteSample_le_headroom : (noteSample s k i).toInt.natAbs ≤ 22937 := by
  have hsin (x : F64) : fMag (sinOf s.build.sin x) ≤ fMag f1 := fMag_le_f1_of_unitValue (unitValue_sinOf _ x)
  have hpeak : magUnits (fMag (fMul (tonePeak f1) f32767)) / oneUnits ≤ 22937 := by decide +kernel
  exact (natAbs_noteSample_le hwf hready hk hi levelValue_f1 (hsin _) (hsin _)).trans hpeak

end Sample

/-- Law L2: the phase and so the sine of a first sample are 0. -/
theorem noteSample_first {s : State} {k : Nat} (hwf : s.build.caps.wf = true) (hready : toneReady s)
    (hk : k < s.phraseLen.toNat) (hi : 0 < toneCount s k) : noteSample s k 0 = 0 := by
  have ⟨⟨_, hrate, _⟩, hnotes, _⟩ := hready
  obtain hrest | hpos := (hnotes k hk).1
  · exact noteSample_rest hrest
  have hscale : fIsFinite (fMul fTwoPi (melFreq s k)) = true :=
    fIsFinite_of_fMag_le (b := fMul fTwoPi fTwo32) (by decide +kernel)
      (fMag_fMul_le (by decide) (by decide) le_rfl (fMag_le_fTwo32 hpos))
  have htime := timeValue_sampleTime hwf hready hk hi
  have hphase : fUnits (notePhase s k 0) = 0 :=
    isRounding_zero (isRounding_fMul hscale htime.1) (by rw [fUnits_startTime hrate, Int.mul_zero])
  have hdouble : fUnits (fMul f2 (notePhase s k 0)) = 0 :=
    isRounding_zero (isRounding_fMul (by decide) (fIsFinite_of_zero hphase)) (by rw [hphase, Int.mul_zero])
  have hpeak : magUnits (fMag (fMul (tonePeak f0) f32767)) / oneUnits = 0 := by decide +kernel
  have hsize := natAbs_noteSample_le hwf hready hk hi levelValue_f0 (fMag_sinOf_zero _ hphase).le
    (fMag_sinOf_zero _ hdouble).le
  rw [hpeak, Nat.le_zero, Int.natAbs_eq_zero] at hsize
  exact BitVec.eq_of_toInt_eq hsize

/-- Settles O25: a rest is not rendered, and a first sample is no larger than one whose sine is 0 throughout. -/
theorem toneRestsAndStartsSilent : Obligations.ToneRestsAndStartsSilent := by
  intro s t hwf hexec hdone k i hk hi hsilent
  obtain ⟨hready, rfl⟩ := exec_tone_done hexec hdone
  rw [sampleAt_toneResult hk hi]
  obtain hrest | rfl := hsilent
  · exact noteSample_rest hrest
  · exact noteSample_first hwf hready hk hi

/-- Settles O26: every sample counted by SMP_LEN is one of a note, and no larger than one whose sine is 1 throughout. -/
theorem toneSamplesWithinHeadroom : Obligations.ToneSamplesWithinHeadroom := by
  intro s t hwf hexec hdone j hj
  obtain ⟨hready, rfl⟩ := exec_tone_done hexec hdone
  obtain ⟨k, i, hk, hi, hsample⟩ := exists_noteSample_of_lt_smpLen hj
  have hsize := natAbs_noteSample_le_headroom hwf hready hk hi
  rw [hsample]
  omega

end Sys2Proof.Machine

/-! PROOFS. The percussion voices (`43_percussion.md`): the amplitude, the size of a voice, the validation of the three
commands by value, and the commands KICK, SNARE, HAT and SEED. -/

namespace Sys2Proof.Machine

/-! ### The linear amplitude (R170) -/

/-- An infinite subtrahend decides the difference. -/
theorem fSub_of_fIsInf {x y : F64} (hx : fIsFinite x = true) (hy : fIsInf y = true) : fSub x y = fNeg y := by
  have hmag : fMag (fNeg y) = infMag := (fMag_fNeg y).trans (of_decide_eq_true hy)
  have hinf : fIsInf (fNeg y) = true := decide_eq_true hmag
  have hnan : fIsNaN (fNeg y) = false := decide_eq_false hmag.not_gt
  simp [fSub, fAdd, hinf, hnan, fIsFinite_not_nan hx, fIsFinite_not_inf hx]

theorem fIsFinite_or_fIsInf {x : F64} (h : fIsNaN x = false) : fIsFinite x = true ∨ fIsInf x = true := by
  simp only [fIsNaN, fIsFinite, fIsInf, decide_eq_false_iff_not, decide_eq_true_eq] at h ⊢
  omega

theorem fSub_not_nan {x y : F64} (hx : fIsFinite x = true) (hy : fIsNaN y = false) : fIsNaN (fSub x y) = false := by
  obtain hfin | hinf := fIsFinite_or_fIsInf hy
  · exact isRounding_not_nan (isRounding_fSub hx hfin)
  · rwa [fSub_of_fIsInf hx hinf, fIsNaN, fMag_fNeg]

/-- Taking off as much or more leaves nothing above 0, also when the subtrahend has overflowed. -/
theorem fSub_nonpos {x y : F64} (hx : fIsFinite x = true) (hx0 : 0 ≤ fUnits x) (hy : fIsNaN y = false)
    (h : fUnits x ≤ fUnits y) : fUnits (fSub x y) ≤ 0 := by
  obtain hfin | hinf := fIsFinite_or_fIsInf hy
  · have hle := isRounding_le (x := f0) (isRounding_fSub hx hfin) (by decide) (by rw [fUnits_f0]; omega)
    rwa [fUnits_f0] at hle
  · rw [fSub_of_fIsInf hx hinf, fUnits_fNeg]
    omega

section Amplitude
variable {dt du len : F64} (hdt : fIsFinite dt = true) (hdu : fIsFinite du = true) (hlen : fIsFinite len = true)
  (hpos : 0 < fUnits len)
include hdt hlen hpos

/-- The test of the amplitude is by value; the quotient may be infinite, and is no NaN. -/
theorem ampLin_eq_ite :
    ampLin dt len = if 0 < fUnits (fSub f1 (fDiv dt len)) then fSub f1 (fDiv dt len) else f0 := by
  have hquot := isRounding_not_nan (isRounding_fDiv hdt hlen hpos)
  rw [ampLin, fLt_of_not_nan (by decide) (fSub_not_nan (by decide) hquot), fUnits_f0]
  simp only [decide_eq_true_eq]

theorem fUnits_ampLin : fUnits (ampLin dt len) = max 0 (fUnits (fSub f1 (fDiv dt len))) := by
  rw [ampLin_eq_ite hdt hlen hpos]
  split
  case isTrue h => exact (max_eq_right h.le).symm
  case isFalse h => rw [fUnits_f0, max_eq_left (not_lt.1 h)]

/-- From `dt = L` on the quotient is 1.0 or more. -/
theorem ampLin_after_end (h : fUnits len ≤ fUnits dt) : ampLin dt len = f0 := by
  have hquot := isRounding_fDiv hdt hlen hpos
  have hone : fUnits f1 ≤ fUnits (fDiv dt len) := by
    refine le_isRounding hquot (by decide) ?_
    rw [fUnits_f1, Int.natAbs_of_nonneg hpos.le, Int.mul_comm]
    exact Int.mul_le_mul_of_nonneg_right h oneUnits_pos_int.le
  have hdiff := fSub_nonpos (by decide) (by decide +kernel) (isRounding_not_nan hquot) hone
  rw [ampLin_eq_ite hdt hlen hpos, if_neg hdiff.not_gt]

theorem ampLin_start (h : fUnits dt = 0) : ampLin dt len = f1 := by
  have hquot : fUnits (fDiv dt len) = 0 :=
    isRounding_zero (isRounding_fDiv hdt hlen hpos) (by rw [h, Int.zero_mul])
  have hdiff : fSub f1 (fDiv dt len) = f1 :=
    eq_of_fUnits_eq
      (isRounding_exact (isRounding_fSub (by decide) (fIsFinite_of_zero hquot)) (by decide) (by rw [hquot]; omega))
      (by decide +kernel)
  rw [ampLin_eq_ite hdt hlen hpos, hdiff, if_pos (by decide +kernel)]

/-- Before `dt = L` the quotient is a level and so is what it leaves of 1.0. -/
theorem levelValue_ampLin (h0 : 0 ≤ fUnits dt) : levelValue (ampLin dt len) := by
  obtain hend | hbefore := le_or_gt (fUnits len) (fUnits dt)
  · rw [ampLin_after_end hdt hlen hpos hend]
    exact levelValue_f0
  · rw [ampLin_eq_ite hdt hlen hpos]
    split
    case isTrue => exact levelValue_one_sub (levelValue_fDiv hdt hlen h0 hbefore.le hpos)
    case isFalse => exact levelValue_f0

include hdu in
/-- Before the end the quotient and the difference each keep the order; after it nothing is left. -/
theorem ampLin_antitone (h0 : 0 ≤ fUnits dt) (h : fUnits dt ≤ fUnits du) :
    fUnits (ampLin du len) ≤ fUnits (ampLin dt len) := by
  obtain hend | hbefore := le_or_gt (fUnits len) (fUnits du)
  · rw [ampLin_after_end hdu hlen hpos hend, fUnits_f0, fUnits_ampLin hdt hlen hpos]
    exact le_max_left _ _
  · have hquot : fUnits (fDiv dt len) ≤ fUnits (fDiv du len) :=
      isRounding_mono (isRounding_fDiv hdt hlen hpos) (isRounding_fDiv hdu hlen hpos)
        (Int.mul_le_mul_of_nonneg_right (Int.mul_le_mul_of_nonneg_right h oneUnits_pos_int.le) (Int.natCast_nonneg _))
    obtain ⟨hdtFin, -⟩ := levelValue_fDiv hdt hlen h0 (h.trans hbefore.le) hpos
    obtain ⟨hduFin, -⟩ := levelValue_fDiv hdu hlen (h0.trans h) hbefore.le hpos
    rw [fUnits_ampLin hdu hlen hpos, fUnits_ampLin hdt hlen hpos]
    exact max_le_max_left _
      (isRounding_mono (isRounding_fSub (by decide) hduFin) (isRounding_fSub (by decide) hdtFin) (by omega))

end Amplitude

/-- Settles O31: each part is a fact about `ampLin`. -/
theorem amplitudeDecaysToZero : Obligations.AmplitudeDecaysToZero := by
  intro dt du len hdt hdu hlen hpos h0 hle
  exact ⟨ampLin_eq_ite hdt hlen hpos, levelValue_ampLin hdt hlen hpos h0, ampLin_antitone hdt hdu hlen hpos h0 hle,
    ampLin_start hdt hlen hpos, ampLin_after_end hdt hlen hpos⟩

/-! ### The size of a voice (R175 to R177) -/

theorem unitValue_of_fMag_le_f1 {x : F64} (h : fMag x ≤ fMag f1) : unitValue x := by
  rw [← magUnits_le_iff, magUnits_f1, ← natAbs_fUnits] at h
  exact ⟨fIsFinite_of_natAbs_le h, by omega, by omega⟩

theorem unitValue_fMul {x y : F64} (hx : unitValue x) (hy : unitValue y) : unitValue (fMul x y) := by
  have hone : fMag (fMul f1 f1) = fMag f1 := by decide +kernel
  exact unitValue_of_fMag_le_f1
    ((fMag_fMul_le (by decide) (by decide) (fMag_le_f1_of_unitValue hx) (fMag_le_f1_of_unitValue hy)).trans_eq hone)

/-- The mix of the snare: its two weights, 0.72 and 0.28 as rounded, add up to 1.0 exactly (R176). -/
theorem unitValue_snareMix {n v : F64} (hn : unitValue n) (hv : unitValue v) :
    unitValue (fAdd (fMul f0_72 n) (fMul f0_28 v)) := by
  have hnoise := fMag_fMul_le (a := f0_72) (by decide) (by decide) le_rfl (fMag_le_f1_of_unitValue hn)
  have hsine := fMag_fMul_le (a := f0_28) (by decide) (by decide) le_rfl (fMag_le_f1_of_unitValue hv)
  have hweights : fMag (fAdd (fMul f0_72 f1) (fMul f0_28 f1)) = fMag f1 := by decide +kernel
  exact unitValue_of_fMag_le_f1 ((fMag_fAdd_le (by decide +kernel) (by decide +kernel) hnoise hsine
    (by decide +kernel) (by decide +kernel)).trans_eq hweights)

/-- Settles O32: a voice is a number in [-1, 1] times the amplitude, whatever the phase of its sine. -/
theorem voicesWithinUnit : Obligations.VoicesWithinUnit := by
  intro b dt n hdt h0 hn
  have hamp {len : F64} (hlen : fIsFinite len = true) (hpos : 0 < fUnits len) : unitValue (ampLin dt len) :=
    unitValue_of_levelValue (levelValue_ampLin hdt hlen hpos h0)
  refine ⟨fun _ => ?_, fun _ => ?_, fun _ => ?_⟩
  · exact unitValue_fMul (unitValue_sinOf b _) (hamp (by decide) (by decide +kernel))
  · exact unitValue_fMul (unitValue_snareMix hn (unitValue_sinOf b _)) (hamp (by decide) (by decide +kernel))
  · exact unitValue_fMul hn (hamp (by decide) (by decide +kernel))

/-! ### The validation and the windows, by value (R171 to R173, R178) -/

theorem fUnits_fNegTwo32 : fUnits fNegTwo32 = -((2 ^ 32 * oneUnits : Nat) : Int) := by decide +kernel

theorem hitTimeOk_eq_decide (x : F64) : hitTimeOk x = decide (hitValue x) := by
  rw [hitTimeOk, inDomain_eq_decide (by decide) (by decide), fUnits_fNegTwo32, fUnits_fTwo32]

/-- The commands that render one percussion voice. -/
def isHit (i : Instr) : Prop := i = .kick ∨ i = .snare ∨ i = .hat

theorem commandCheck_hit {i : Instr} (hi : isHit i) : commandCheck i = hitCheck := by
  obtain rfl | rfl | rfl := hi <;> rfl

theorem exec_hit_ready {i : Instr} {s : State} (hi : isHit i) (h : hitValue s.tIn) :
    exec i s = .next (finish (commandEffect i s)) := by
  rw [exec_eq, commandCheck_hit hi, hitCheck, hitTimeOk_eq_decide, decide_eq_true h, firstFault_cons, if_pos rfl,
    firstFault_nil, runCommand_none]

theorem exec_hit_fault {i : Instr} {s : State} (hi : isHit i) (h : ¬ hitValue s.tIn) :
    exec i s = .next (raiseFault (badParam 0x020) s) := by
  rw [exec_eq, commandCheck_hit hi, hitCheck, hitTimeOk_eq_decide, decide_eq_false h, firstFault_cons,
    if_neg Bool.false_ne_true, runCommand_some]

theorem inWindow_iff {w dt : F64} (hw : fIsFinite w = true) (hdt : fIsFinite dt = true) :
    inWindow w dt = true ↔ 0 ≤ fUnits dt ∧ fUnits dt ≤ fUnits w := by
  have hzero : fIsNaN f0 = false := by decide
  simp [inWindow, fLe, hzero, fIsFinite_not_nan hw, fIsFinite_not_nan hdt, fUnits_f0]

theorem kickFreq_eq_ite {dt : F64} (hdt : fIsFinite dt = true) :
    kickFreq dt = if fUnits dt < fUnits f0_12 then fSub f120 (fMul f70 (fDiv dt f0_12)) else f50 := by
  simp only [kickFreq, fLt_eq_decide hdt (show fIsFinite f0_12 = true by decide), decide_eq_true_eq]

/-- The angular frequency of the snare, `TWO_PI * 190.0`, rounded once (R176). -/
theorem snareAngularFreq : fMul fTwoPi f190 = 0x4092A738888A9978#64 := by decide +kernel

/-! ### The commands -/

/-- Settles O30: the one check of the three commands fails. -/
theorem voicesRejectTime : Obligations.VoicesRejectTime := fun _ _ hi h => exec_hit_fault hi h

/-- Settles O27: the effect is the voice or +0.0, with the tests of the window and of the sweep by value. -/
theorem kickWritesVoice : Obligations.KickWritesVoice := by
  rintro s _ _ h rfl rfl
  have hfreq := kickFreq_eq_ite h.1
  have hwindow := inWindow_iff (w := kickWindow) (by decide) h.1
  rw [exec_hit_ready (.inl rfl) h, commandEffect, kickEffect, kickVoice, hfreq]
  simp only [hwindow]
  rfl

/-- A voice with a draw has two effects, one inside its window and one outside; the window is tested by value. -/
theorem exec_hit_window {i : Instr} {s inside outside : State} {w : F64} (hi : isHit i) (h : hitValue s.tIn)
    (hw : fIsFinite w = true) (heffect : commandEffect i s = if inWindow w s.tIn then inside else outside) :
    exec i s = .next
      (if 0 ≤ fUnits s.tIn ∧ fUnits s.tIn ≤ fUnits w then finish inside else finish outside) := by
  simp only [exec_hit_ready hi h, heffect, inWindow_iff hw h.1, apply_ite finish]

/-- Settles O28: inside the window the effect is one draw and the voice, outside it +0.0. -/
theorem snareWritesVoice : Obligations.SnareWritesVoice := by
  intro s h
  rw [exec_hit_window (w := snareWindow) (.inr (.inl rfl)) h (by decide) rfl, snareVoice, snareAngularFreq]
  rfl

/-- Settles O29: inside the window the effect is one draw and the voice, outside it +0.0. -/
theorem hatWritesVoice : Obligations.HatWritesVoice := by
  intro s h
  exact exec_hit_window (w := hatWindow) (.inr (.inr rfl)) h (by decide) rfl

/-- Settles O33: SEED has no check, and its effect is `reseed`. -/
theorem seedReseeds : Obligations.SeedReseeds := by
  refine fun s => ⟨exec_eq .seed s, fun href => ?_⟩
  rw [href]
  rfl

end Sys2Proof.Machine

/-! PROOFS. The step sequencer (`44_sequencer.md`): its validation by value, the onset lists, the drum voices as folds
over these lists, and the noise state threaded through the samples. -/

namespace Sys2Proof.Machine

/-! ### The validation of SEQ (R191), by value -/

theorem firstFault_pass {p : Prop} [Decidable p] (f : FaultRecord) (rest : List (Bool × FaultRecord)) (h : p) :
    firstFault ((decide p, f) :: rest) = firstFault rest := by
  rw [firstFault_cons, decide_eq_true h, if_pos rfl]

theorem firstFault_fail {p : Prop} [Decidable p] (f : FaultRecord) (rest : List (Bool × FaultRecord)) (h : ¬ p) :
    firstFault ((decide p, f) :: rest) = some f := by
  rw [firstFault_cons, decide_eq_false h, if_neg Bool.false_ne_true]

theorem firstFault_append_eq_none {l m : List (Bool × FaultRecord)} :
    firstFault (l ++ m) = none ↔ firstFault l = none ∧ firstFault m = none := by
  simp only [firstFault_eq_none, List.forall_mem_append]

theorem firstFault_append_of_some {l : List (Bool × FaultRecord)} {f : FaultRecord} (m : List (Bool × FaultRecord))
    (h : firstFault l = some f) : firstFault (l ++ m) = some f := by
  rw [firstFault_append, h]

theorem firstFault_append_of_none {l : List (Bool × FaultRecord)} (m : List (Bool × FaultRecord))
    (h : firstFault l = none) : firstFault (l ++ m) = firstFault m := by
  rw [firstFault_append, h]

theorem capacityFault_eq {id : Nat} (n : Nat) (h : id < 2 ^ 8) :
    capacityFault id n = ⟨4, BitVec.ofNat 64 (id * 2 ^ 56 + min n (2 ^ 56 - 1))⟩ := by
  rw [capacityFault, capInfo_eq n h]

/-- An amount below 2^56 is reported as it is (R254). -/
theorem capacityFault_of_lt {id n : Nat} (h : id < 2 ^ 8) (hn : n < 2 ^ 56) :
    capacityFault id n = ⟨4, BitVec.ofNat 64 (id * 2 ^ 56 + n)⟩ := by
  rw [capacityFault_eq n h, Nat.min_eq_left (by omega)]

/-- The fault of a bad FREQ word of MEL names its address (R40, R73). -/
theorem badParam_melFreq (k : Nat) :
    badParam (wordAddr .mel (freqWord k)) = ⟨2, BitVec.ofNat 64 (0x10000000 + 16 * k)⟩ := by
  have haddr : wordAddr .mel (freqWord k) = 0x10000000 + 16 * k := by
    simp only [wordAddr, freqWord, tableRegion]
    omega
  rw [badParam, haddr]

/-- The fault of a bad FREQ word of BASS names its address (R41, R73). -/
theorem badParam_bassFreq (k : Nat) :
    badParam (wordAddr .bass (freqWord k)) = ⟨2, BitVec.ofNat 64 (0x20000000 + 16 * k)⟩ := by
  have haddr : wordAddr .bass (freqWord k) = 0x20000000 + 16 * k := by
    simp only [wordAddr, freqWord, tableRegion]
    omega
  rw [badParam, haddr]

theorem one_le_toNat_iff (n : U32) : 1 ≤ n.toNat ↔ n ≠ 0 := by
  bv_omega

theorem seqScalarChecks_eq (s : State) :
    seqScalarChecks s =
      [(decide (positiveValue s.bpm), badParam 0x050), (decide (rateValue s.srate), badParam 0x058),
        (decide (1 ≤ s.loops.toNat), badParam 0x060), (decide (1 ≤ s.phraseLen.toNat), badParam 0x068),
        (decide (1 ≤ s.drumLen.toNat), badParam 0x070),
        (decide (s.phraseLen.toNat ≤ s.build.caps.maxNotes), capacityFault 1 s.phraseLen.toNat),
        (decide (s.drumLen.toNat ≤ s.build.caps.maxDrum), capacityFault 2 s.drumLen.toNat),
        (decide (totalSteps s ≤ 2 ^ 32), capacityFault 9 (totalSteps s))] := by
  rw [seqScalarChecks, positiveOk_eq_decide, srateOk_eq_decide, countOk, countOk, countOk]

theorem firstFault_seqScalarChecks_iff (s : State) : firstFault (seqScalarChecks s) = none ↔ seqScalars s := by
  simp only [firstFault_eq_none, seqScalarChecks_eq, List.forall_mem_cons, List.not_mem_nil, false_imp_iff,
    implies_true, decide_eq_true_eq, and_true]
  exact Iff.rfl

/-- The checks of the first `n` FREQ words of a note table (R191 (9), (10)). -/
def freqChecks (t : Table) (freq : Nat → F64) (n : Nat) : List (Bool × FaultRecord) :=
  (List.range n).map fun k => (freqOk (freq k), badParam (wordAddr t (freqWord k)))

theorem seqNoteChecks_eq (s : State) :
    seqNoteChecks s =
      freqChecks .mel (melFreq s) s.phraseLen.toNat ++ freqChecks .bass (bassFreq s) s.phraseLen.toNat :=
  rfl

theorem firstFault_freqChecks_iff (t : Table) (freq : Nat → F64) (n : Nat) :
    firstFault (freqChecks t freq n) = none ↔ ∀ k, k < n → freqValue (freq k) := by
  simp only [firstFault_eq_none, freqChecks, List.forall_mem_map, List.mem_range, freqOk_eq_decide, decide_eq_true_eq]

/-- The first FREQ word outside its domain decides the fault of its table's check. -/
theorem firstFault_freqChecks_of_first (t : Table) {freq : Nat → F64} {n k : Nat} (hk : k < n)
    (hbefore : ∀ j, j < k → freqValue (freq j)) (hbad : ¬ freqValue (freq k)) :
    firstFault (freqChecks t freq n) = some (badParam (wordAddr t (freqWord k))) := by
  have hpass := (firstFault_freqChecks_iff t freq k).2 hbefore
  obtain ⟨rest, hrange⟩ := exists_range_eq_append_cons hk
  rw [freqChecks] at hpass ⊢
  rw [hrange, List.map_append, List.map_cons, firstFault_append_of_none _ hpass, freqOk_eq_decide,
    firstFault_fail _ _ hbad]

theorem firstFault_seqNoteChecks_iff (s : State) : firstFault (seqNoteChecks s) = none ↔ seqNotes s := by
  rw [seqNoteChecks_eq, firstFault_append_eq_none, firstFault_freqChecks_iff, firstFault_freqChecks_iff]

theorem seqSizeChecks_eq (s : State) :
    seqSizeChecks s = [(decide (seqTotal s ≤ s.build.caps.maxSamples), capacityFault 3 (seqTotal s))] :=
  rfl

theorem firstFault_seqSizeChecks_iff (s : State) :
    firstFault (seqSizeChecks s) = none ↔ seqTotal s ≤ s.build.caps.maxSamples := by
  simp only [firstFault_eq_none, seqSizeChecks_eq, List.forall_mem_singleton, decide_eq_true_eq]

theorem seqOnsetChecks_eq (s : State) :
    seqOnsetChecks s =
      [(decide (hitCount s 0 ≤ s.build.caps.maxOnsets), capacityFault 5 (hitCount s 0)),
        (decide (hitCount s 1 ≤ s.build.caps.maxOnsets), capacityFault 6 (hitCount s 1)),
        (decide (hitCount s 2 ≤ s.build.caps.maxOnsets), capacityFault 7 (hitCount s 2))] :=
  rfl

theorem firstFault_seqOnsetChecks_iff (s : State) :
    firstFault (seqOnsetChecks s) = none ↔
      hitCount s 0 ≤ s.build.caps.maxOnsets ∧ hitCount s 1 ≤ s.build.caps.maxOnsets ∧
        hitCount s 2 ≤ s.build.caps.maxOnsets := by
  simp only [firstFault_eq_none, seqOnsetChecks_eq, List.forall_mem_cons, List.not_mem_nil, false_imp_iff,
    implies_true, decide_eq_true_eq, and_true]

/-! The four parts of the validation, in their order. -/

theorem seqCheck_of_scalar {s : State} {f : FaultRecord} (h : firstFault (seqScalarChecks s) = some f) :
    seqCheck s = some f := by
  rw [seqCheck_eq, firstFault_append_of_some _ h]

theorem seqCheck_of_note {s : State} {f : FaultRecord} (hscalars : seqScalars s)
    (h : firstFault (seqNoteChecks s) = some f) : seqCheck s = some f := by
  rw [seqCheck_eq, firstFault_append_of_none _ ((firstFault_seqScalarChecks_iff s).2 hscalars),
    firstFault_append_of_some _ h]

theorem seqCheck_of_size {s : State} (hscalars : seqScalars s) (hnotes : seqNotes s) :
    seqCheck s = firstFault (seqSizeChecks s ++ seqOnsetChecks s) := by
  rw [seqCheck_eq, firstFault_append_of_none _ ((firstFault_seqScalarChecks_iff s).2 hscalars),
    firstFault_append_of_none _ ((firstFault_seqNoteChecks_iff s).2 hnotes)]

theorem seqCheck_of_onset {s : State} (hscalars : seqScalars s) (hnotes : seqNotes s)
    (hsize : seqTotal s ≤ s.build.caps.maxSamples) : seqCheck s = firstFault (seqOnsetChecks s) := by
  rw [seqCheck_of_size hscalars hnotes, firstFault_append_of_none _ ((firstFault_seqSizeChecks_iff s).2 hsize)]

/-- The validation passes exactly on the operands R191 admits. -/
theorem seqCheck_eq_none_iff (s : State) : seqCheck s = none ↔ seqReady s := by
  rw [seqCheck_eq, firstFault_append_eq_none, firstFault_append_eq_none, firstFault_append_eq_none,
    firstFault_seqScalarChecks_iff, firstFault_seqNoteChecks_iff, firstFault_seqSizeChecks_iff,
    firstFault_seqOnsetChecks_iff]

/-! The two ends of SEQ. -/

/-- What SEQ leaves when it succeeds (R190). -/
def seqResult (s : State) : State :=
  finish (storeSamples (seqRun s).1 (BitVec.ofNat 32 (seqTotal s)) (seqRun s).2
    (storeOnsets (onsets s 0) (onsets s 1) (onsets s 2) s))

theorem exec_seq_fault {s : State} {f : FaultRecord} (h : seqCheck s = some f) :
    exec .seq s = .next (raiseFault f s) := by
  rw [exec_eq, commandCheck, h, runCommand_some]

theorem exec_seq_ready {s : State} (h : seqReady s) : exec .seq s = .next (seqResult s) := by
  rw [exec_eq, commandCheck, (seqCheck_eq_none_iff s).2 h, runCommand_none, commandEffect, seqEffect_eq, seqResult]

theorem exec_seq_done {s t : State} (h : exec .seq s = .next t) (hdone : t.done = true) :
    seqReady s ∧ t = seqResult s := by
  obtain ⟨hcheck, rfl⟩ | ⟨f, -, rfl⟩ := exec_cases h
  · exact ⟨(seqCheck_eq_none_iff s).1 hcheck, by rw [commandEffect, seqEffect_eq, seqResult]⟩
  · simp at hdone

/-! ### Onset lists in the tables (R46) -/

theorem onsetList_congr {s u : State} {t : Table} {n : Nat} (h : ∀ j, j < n → loadElem s t j = loadElem u t j) :
    onsetList s t n = onsetList u t n :=
  List.map_congr_left fun j hj => h j (List.mem_range.1 hj)

/-- An onset list depends on the memory and the number of resets only. -/
theorem onsetList_of_mem_eq {s u : State} (hmem : s.mem = u.mem) (hresets : s.resets = u.resets) (t : Table) (n : Nat) :
    onsetList s t n = onsetList u t n :=
  onsetList_congr fun j _ => loadElem_congr hmem hresets t j

/-- A list stored from the start of a table of 64-bit elements is read back there. -/
theorem onsetList_storeElems_same {t : Table} (times : List F64) (s : State) (ht : tableBits t = 64) :
    onsetList (storeElems t 0 times s) t times.length = times := by
  refine List.ext_getElem (by simp [onsetList]) fun j _ hj => ?_
  have hload := loadElem_storeElems_same t 0 times s hj
  rw [ht, Nat.mod_eq_of_lt times[j].isLt, BitVec.ofNat_toNat, BitVec.setWidth_eq, Nat.zero_add] at hload
  simp only [onsetList, List.getElem_map, List.getElem_range, hload]

theorem onsetList_storeElems_other {t u : Table} {vs : List Word} {n : Nat} (s : State) (hvs : vs.length ≤ 2 ^ 25)
    (hn : n ≤ 2 ^ 25) (h : t ≠ u) : onsetList (storeElems t 0 vs s) u n = onsetList s u n :=
  onsetList_congr fun _ hj => loadElem_storeElems_other 0 vs s (by omega) (by omega) h

theorem storeOnsets_mem (kicks snares hats : List F64) (s : State) :
    (storeOnsets kicks snares hats s).mem =
      (storeElems .onsH 0 hats (storeElems .onsS 0 snares (storeElems .onsK 0 kicks s))).mem :=
  rfl

theorem storeOnsets_resets (kicks snares hats : List F64) (s : State) :
    (storeOnsets kicks snares hats s).resets =
      (storeElems .onsH 0 hats (storeElems .onsS 0 snares (storeElems .onsK 0 kicks s))).resets :=
  rfl

theorem storeOnsets_fault (kicks snares hats : List F64) (s : State) :
    (storeOnsets kicks snares hats s).fault = s.fault := by
  simp [storeOnsets]

theorem storeSamples_fault (samples : List (BitVec 16)) (n : U32) (rng : NoiseState) (s : State) :
    (storeSamples samples n rng s).fault = s.fault := by
  simp [storeSamples]

theorem storeSamples_mem (samples : List (BitVec 16)) (n : U32) (rng : NoiseState) (s : State) :
    (storeSamples samples n rng s).mem = (storeElems .smp 0 (sampleWords samples) s).mem :=
  rfl

theorem storeSamples_resets (samples : List (BitVec 16)) (n : U32) (rng : NoiseState) (s : State) :
    (storeSamples samples n rng s).resets = (storeElems .smp 0 (sampleWords samples) s).resets :=
  rfl

/-- The pre-pass leaves the three lists it was given (R195). -/
theorem onsetList_storeOnsets {kicks snares hats : List F64} (s : State) (hkicks : kicks.length ≤ 2 ^ 25)
    (hsnares : snares.length ≤ 2 ^ 25) (hhats : hats.length ≤ 2 ^ 25) :
    onsetList (storeOnsets kicks snares hats s) .onsK kicks.length = kicks ∧
      onsetList (storeOnsets kicks snares hats s) .onsS snares.length = snares ∧
      onsetList (storeOnsets kicks snares hats s) .onsH hats.length = hats := by
  have hmem (t : Table) (n : Nat) : onsetList (storeOnsets kicks snares hats s) t n =
      onsetList (storeElems .onsH 0 hats (storeElems .onsS 0 snares (storeElems .onsK 0 kicks s))) t n :=
    onsetList_of_mem_eq (storeOnsets_mem ..) (storeOnsets_resets ..) t n
  refine ⟨?_, ?_, ?_⟩
  · rw [hmem, onsetList_storeElems_other _ hhats hkicks (by decide),
      onsetList_storeElems_other _ hsnares hkicks (by decide), onsetList_storeElems_same _ _ rfl]
  · rw [hmem, onsetList_storeElems_other _ hhats hsnares (by decide), onsetList_storeElems_same _ _ rfl]
  · rw [hmem, onsetList_storeElems_same _ _ rfl]

theorem onsetList_storeSamples {samples : List (BitVec 16)} (n : U32) (rng : NoiseState) {t : Table} {len : Nat}
    (s : State) (hsamples : samples.length ≤ 2 ^ 25) (hlen : len ≤ 2 ^ 25) (h : .smp ≠ t) :
    onsetList (storeSamples samples n rng s) t len = onsetList s t len :=
  (onsetList_of_mem_eq (storeSamples_mem ..) (storeSamples_resets ..) t len).trans
    (onsetList_storeElems_other (vs := sampleWords samples) s (by rwa [sampleWords_length]) hlen h)

/-! ### What a successful SEQ leaves (R190, R195) -/

/-- No voice has more hits than the render has steps. -/
theorem hitCount_le_totalSteps (s : State) (b : Nat) : hitCount s b ≤ totalSteps s :=
  List.countP_le_length.trans_eq List.length_range

theorem totalSteps_le {s : State} (h : seqScalars s) : totalSteps s ≤ 2 ^ 32 := by
  obtain ⟨-, -, -, -, -, -, -, hsteps⟩ := h
  exact hsteps

theorem hitCount_eq (s : State) :
    (fun b => ((List.range (s.phraseLen.toNat * s.loops.toNat)).filter
      fun g => (drumStep s (g % s.drumLen.toNat)).getLsbD b).length) = hitCount s :=
  funext fun _ => List.countP_eq_length_filter.symm

theorem seqTotal_eq (s : State) :
    seqTotal s = rneInt (fMul (fMul (ofNatF (s.phraseLen.toNat * s.loops.toNat))
      (fDiv (fDiv 0x404E000000000000#64 s.bpm) 0x4000000000000000#64)) (ofNatF s.srate.toNat)) := by
  rw [seqTotal, sampleCount, totalSteps, stepSeconds, srateF]
  rfl

theorem seqResult_smpLen (s : State) : (seqResult s).smpLen = BitVec.ofNat 32 (seqTotal s) := by
  rw [seqResult, finish_smpLen, storeSamples_smpLen]

theorem seqResult_nK (s : State) : (seqResult s).nK = BitVec.ofNat 32 (hitCount s 0) := by
  rw [seqResult, finish_nK, storeSamples_nK, storeOnsets_nK, onsets_length]

theorem seqResult_nS (s : State) : (seqResult s).nS = BitVec.ofNat 32 (hitCount s 1) := by
  rw [seqResult, finish_nS, storeSamples_nS, storeOnsets_nS, onsets_length]

theorem seqResult_nH (s : State) : (seqResult s).nH = BitVec.ofNat 32 (hitCount s 2) := by
  rw [seqResult, finish_nH, storeSamples_nH, storeOnsets_nH, onsets_length]

theorem seqResult_fault (s : State) : (seqResult s).fault = s.fault := by
  rw [seqResult, finish_fault, storeSamples_fault, storeOnsets_fault]

theorem toNat_ofNat_of_le {n : Nat} (h : n ≤ 2 ^ 25) : (BitVec.ofNat 32 n).toNat = n := by
  rw [BitVec.toNat_ofNat, Nat.mod_eq_of_lt (by omega)]

section Result
variable {s : State} (hwf : s.build.caps.wf = true) (hready : seqReady s)
include hwf hready

/-- The numbers of elements SEQ stores, within the tables and so below 2^32 (R5, R258). -/
theorem seq_lengths_le :
    seqTotal s ≤ 2 ^ 25 ∧ hitCount s 0 ≤ 2 ^ 25 ∧ hitCount s 1 ≤ 2 ^ 25 ∧ hitCount s 2 ≤ 2 ^ 25 := by
  have hsmp : s.build.caps.maxSamples ≤ 2 ^ 25 := tableWords_le hwf .smp
  have hons : s.build.caps.maxOnsets ≤ 2 ^ 25 := tableWords_le hwf .onsK
  obtain ⟨-, -, htotal, hkicks, hsnares, hhats⟩ := hready
  exact ⟨htotal.trans hsmp, hkicks.trans hons, hsnares.trans hons, hhats.trans hons⟩

theorem toNat_smpLen_seqResult : (seqResult s).smpLen.toNat = seqTotal s := by
  obtain ⟨htotal, -⟩ := seq_lengths_le hwf hready
  rw [seqResult_smpLen, toNat_ofNat_of_le htotal]

theorem toNat_counts_seqResult :
    (seqResult s).nK.toNat = hitCount s 0 ∧ (seqResult s).nS.toNat = hitCount s 1 ∧
      (seqResult s).nH.toNat = hitCount s 2 := by
  obtain ⟨-, hkicks, hsnares, hhats⟩ := seq_lengths_le hwf hready
  rw [seqResult_nK, seqResult_nS, seqResult_nH]
  exact ⟨toNat_ofNat_of_le hkicks, toNat_ofNat_of_le hsnares, toNat_ofNat_of_le hhats⟩

theorem onsetList_seqResult :
    onsetList (seqResult s) .onsK (seqResult s).nK.toNat = onsets s 0 ∧
      onsetList (seqResult s) .onsS (seqResult s).nS.toNat = onsets s 1 ∧
      onsetList (seqResult s) .onsH (seqResult s).nH.toNat = onsets s 2 := by
  obtain ⟨htotal, hkicks, hsnares, hhats⟩ := seq_lengths_le hwf hready
  obtain ⟨hnK, hnS, hnH⟩ := toNat_counts_seqResult hwf hready
  rw [← seqRun_length] at htotal
  rw [hnK, hnS, hnH]
  simp only [← onsets_length] at hkicks hsnares hhats ⊢
  have hmem (t : Table) (n : Nat) (hn : n ≤ 2 ^ 25) (ht : .smp ≠ t) : onsetList (seqResult s) t n =
      onsetList (storeOnsets (onsets s 0) (onsets s 1) (onsets s 2) s) t n :=
    (onsetList_of_mem_eq (finish_mem _) (finish_resets _) t n).trans
      (onsetList_storeSamples _ _ _ htotal hn ht)
  rw [hmem _ _ hkicks (by decide), hmem _ _ hsnares (by decide), hmem _ _ hhats (by decide)]
  exact onsetList_storeOnsets s hkicks hsnares hhats

end Result

/-- Settles O34: the validation passes, and the lists read back are those of the pre-pass. -/
theorem seqRecordsOnsets : Obligations.SeqRecordsOnsets := by
  rintro s _ hwf hready rfl
  exact ⟨seqResult s, exec_seq_ready hready, onsetList_seqResult hwf hready⟩

/-- SEQ with legal operands and a total of 0 samples records the onsets and their counts, and no sample (R191). -/
theorem seqResult_empty {s : State} (hready : seqReady s) (hzero : seqTotal s = 0) :
    (seqResult s).done = true ∧ (seqResult s).fault = s.fault ∧ (seqResult s).smpLen = 0 ∧
      (seqResult s).nK = BitVec.ofNat 32 (hitCount s 0) ∧ (seqResult s).nS = BitVec.ofNat 32 (hitCount s 1) ∧
      (seqResult s).nH = BitVec.ofNat 32 (hitCount s 2) ∧
      (s.build.caps.wf = true →
        onsetList (seqResult s) .onsK (hitCount s 0) = onsets s 0 ∧
          onsetList (seqResult s) .onsS (hitCount s 1) = onsets s 1 ∧
          onsetList (seqResult s) .onsH (hitCount s 2) = onsets s 2) := by
  refine ⟨rfl, seqResult_fault s, by rw [seqResult_smpLen, hzero]; rfl, seqResult_nK s, seqResult_nS s,
    seqResult_nH s, fun hwf => ?_⟩
  obtain ⟨hnK, hnS, hnH⟩ := toNat_counts_seqResult hwf hready
  rw [← hnK, ← hnS, ← hnH]
  exact onsetList_seqResult hwf hready

theorem exec_seq_of_scalar {s : State} {f : FaultRecord} (h : firstFault (seqScalarChecks s) = some f) :
    exec .seq s = .next (raiseFault f s) :=
  exec_seq_fault (seqCheck_of_scalar h)

/-- The scalar checks up to the counts pass: what is left are the three capacities (R191 (6) to (8)). -/
theorem firstFault_seqScalarChecks_of_counts {s : State} (hbpm : positiveValue s.bpm) (hrate : rateValue s.srate)
    (hloops : s.loops ≠ 0) (hphrase : s.phraseLen ≠ 0) (hdrum : s.drumLen ≠ 0) :
    firstFault (seqScalarChecks s) =
      firstFault
        [(decide (s.phraseLen.toNat ≤ s.build.caps.maxNotes), capacityFault 1 s.phraseLen.toNat),
          (decide (s.drumLen.toNat ≤ s.build.caps.maxDrum), capacityFault 2 s.drumLen.toNat),
          (decide (totalSteps s ≤ 2 ^ 32), capacityFault 9 (totalSteps s))] := by
  rw [seqScalarChecks_eq, firstFault_pass _ _ hbpm, firstFault_pass _ _ hrate,
    firstFault_pass _ _ ((one_le_toNat_iff _).2 hloops), firstFault_pass _ _ ((one_le_toNat_iff _).2 hphrase),
    firstFault_pass _ _ ((one_le_toNat_iff _).2 hdrum)]

/-- Settles O36: the checks before the failing one pass, and a total of 0 is within every capacity. -/
theorem seqRejectsFirstBadOperand : Obligations.SeqRejectsFirstBadOperand := by
  intro s total hits times htotal hhits htimes
  obtain rfl : seqTotal s = total := (seqTotal_eq s).trans htotal.symm
  obtain rfl : hitCount s = hits := (hitCount_eq s).symm.trans hhits.symm
  have hzeroCount {n : U32} (h : n = 0) : ¬ 1 ≤ n.toNat := fun hle => (one_le_toNat_iff n).1 hle h
  have hcount {n : U32} (h : n ≠ 0) : 1 ≤ n.toNat := (one_le_toNat_iff n).2 h
  refine ⟨fun hbpm => ?_, fun hbpm hrate => ?_, fun hbpm hrate => ⟨fun hloops => ?_, fun hloops hphrase => ?_,
    fun hloops hphrase hdrum => ?_, fun hloops hphrase hdrum => ⟨fun hcap => ?_, fun hnotes hcap => ?_,
    fun hnotes hdrums hcap => ?_⟩⟩, fun k hscalars hk hbefore hbad => ?_,
    fun k hscalars hmel hk hbefore hbad => ?_, fun hscalars hnotes => ?_, fun hscalars hnotes hzero hcounts => ?_⟩
  · refine exec_seq_of_scalar (f := badParam 0x050) ?_
    rw [seqScalarChecks_eq, firstFault_fail _ _ hbpm]
  · refine exec_seq_of_scalar (f := badParam 0x058) ?_
    rw [seqScalarChecks_eq, firstFault_pass _ _ hbpm, firstFault_fail _ _ hrate]
  · refine exec_seq_of_scalar (f := badParam 0x060) ?_
    rw [seqScalarChecks_eq, firstFault_pass _ _ hbpm, firstFault_pass _ _ hrate,
      firstFault_fail _ _ (hzeroCount hloops)]
  · refine exec_seq_of_scalar (f := badParam 0x068) ?_
    rw [seqScalarChecks_eq, firstFault_pass _ _ hbpm, firstFault_pass _ _ hrate, firstFault_pass _ _ (hcount hloops),
      firstFault_fail _ _ (hzeroCount hphrase)]
  · refine exec_seq_of_scalar (f := badParam 0x070) ?_
    rw [seqScalarChecks_eq, firstFault_pass _ _ hbpm, firstFault_pass _ _ hrate, firstFault_pass _ _ (hcount hloops),
      firstFault_pass _ _ (hcount hphrase), firstFault_fail _ _ (hzeroCount hdrum)]
  · have hlt := s.phraseLen.isLt
    rw [← capacityFault_of_lt (by decide) (by omega)]
    refine exec_seq_of_scalar ?_
    rw [firstFault_seqScalarChecks_of_counts hbpm hrate hloops hphrase hdrum, firstFault_fail _ _ hcap.not_ge]
  · have hlt := s.drumLen.isLt
    rw [← capacityFault_of_lt (by decide) (by omega)]
    refine exec_seq_of_scalar ?_
    rw [firstFault_seqScalarChecks_of_counts hbpm hrate hloops hphrase hdrum, firstFault_pass _ _ hnotes,
      firstFault_fail _ _ hcap.not_ge]
  · rw [← capacityFault_eq _ (by decide)]
    refine exec_seq_of_scalar ?_
    rw [firstFault_seqScalarChecks_of_counts hbpm hrate hloops hphrase hdrum, firstFault_pass _ _ hnotes,
      firstFault_pass _ _ hdrums, totalSteps, firstFault_fail _ _ hcap.not_ge]
  · rw [← badParam_melFreq]
    refine exec_seq_fault (seqCheck_of_note hscalars ?_)
    rw [seqNoteChecks_eq, firstFault_append_of_some _ (firstFault_freqChecks_of_first .mel hk hbefore hbad)]
  · rw [← badParam_bassFreq]
    refine exec_seq_fault (seqCheck_of_note hscalars ?_)
    rw [seqNoteChecks_eq, firstFault_append_of_none _ ((firstFault_freqChecks_iff _ _ _).2 hmel),
      firstFault_freqChecks_of_first .bass hk hbefore hbad]
  · have hlt (b : Nat) : hitCount s b < 2 ^ 56 := by
      have hle := hitCount_le_totalSteps s b
      have hsteps := totalSteps_le hscalars
      omega
    refine ⟨fun hcap => ?_, fun hsize hcap => ?_, fun hsize hkicks hcap => ?_, fun hsize hkicks hsnares hcap => ?_⟩
    · rw [← capacityFault_eq _ (by decide)]
      refine exec_seq_fault ((seqCheck_of_size hscalars hnotes).trans ?_)
      rw [seqSizeChecks_eq, firstFault_append_of_some _ (firstFault_fail _ _ hcap.not_ge)]
    all_goals
      rw [← capacityFault_of_lt (by decide) (hlt _)]
      refine exec_seq_fault ((seqCheck_of_onset hscalars hnotes hsize).trans ?_)
      rw [seqOnsetChecks_eq]
    · rw [firstFault_fail _ _ hcap.not_ge]
    · rw [firstFault_pass _ _ hkicks, firstFault_fail _ _ hcap.not_ge]
    · rw [firstFault_pass _ _ hkicks, firstFault_pass _ _ hsnares, firstFault_fail _ _ hcap.not_ge]
  · have hready : seqReady s :=
      ⟨hscalars, hnotes, by omega, hcounts 0 (by omega), hcounts 1 (by omega), hcounts 2 (by omega)⟩
    rw [htimes]
    exact ⟨seqResult s, exec_seq_ready hready, seqResult_empty hready hzero⟩


/-! ### What SEQ depends on (R192, R193, R201 (a)) -/

/-- Two states agree on what SEQ reads: the parameters, its scalar operands, the FREQ words below PHRASE_LEN and the
DRUM entries below DRUM_LEN. -/
structure SameSeqOperands (s u : State) : Prop where
  build : s.build = u.build
  bpm : s.bpm = u.bpm
  srate : s.srate = u.srate
  loops : s.loops = u.loops
  phraseLen : s.phraseLen = u.phraseLen
  drumLen : s.drumLen = u.drumLen
  melFreq : ∀ k, k < s.phraseLen.toNat → melFreq s k = melFreq u k
  bassFreq : ∀ k, k < s.phraseLen.toNat → bassFreq s k = bassFreq u k
  drumStep : ∀ j, j < s.drumLen.toNat → drumStep s j = drumStep u j

theorem freqChecks_congr (t : Table) {f g : Nat → F64} {n : Nat} (hfg : ∀ k, k < n → f k = g k) :
    freqChecks t f n = freqChecks t g n :=
  List.map_congr_left fun k hk => by rw [hfg k (List.mem_range.1 hk)]

section Agreement
variable {s u : State} (h : SameSeqOperands s u)
include h

theorem totalSteps_congr : totalSteps s = totalSteps u := by rw [totalSteps, totalSteps, h.phraseLen, h.loops]

theorem sampleTime_congr (i : Nat) : sampleTime s i = sampleTime u i := by
  rw [sampleTime, sampleTime, srateF, srateF, h.srate]

theorem seqTotal_congr : seqTotal s = seqTotal u := by
  rw [seqTotal, seqTotal, srateF, srateF, totalSteps_congr h, h.bpm, h.srate]

theorem seqScalarChecks_congr : seqScalarChecks s = seqScalarChecks u := by
  rw [seqScalarChecks, seqScalarChecks, totalSteps_congr h, h.bpm, h.srate, h.loops, h.phraseLen, h.drumLen, h.build]

theorem seqNoteChecks_congr : seqNoteChecks s = seqNoteChecks u := by
  rw [seqNoteChecks_eq, seqNoteChecks_eq, freqChecks_congr .mel h.melFreq, freqChecks_congr .bass h.bassFreq,
    h.phraseLen]

theorem seqSizeChecks_congr : seqSizeChecks s = seqSizeChecks u := by
  rw [seqSizeChecks, seqSizeChecks, seqTotal_congr h, h.build]

/-- Past the scalar checks DRUM_LEN is not 0, so that a drum index is below it (R195). -/
theorem drumHit_congr (hscalars : seqScalars s) (b : Nat) : drumHit s b = drumHit u b := by
  obtain ⟨-, -, -, -, hdrum, -⟩ := hscalars
  funext g
  rw [drumHit, drumHit, h.drumStep _ (Nat.mod_lt g hdrum), h.drumLen]

theorem onsets_congr (hscalars : seqScalars s) (b : Nat) : onsets s b = onsets u b := by
  rw [onsets, onsets, totalSteps_congr h, drumHit_congr h hscalars, h.bpm]

theorem hitCount_congr (hscalars : seqScalars s) (b : Nat) : hitCount s b = hitCount u b := by
  rw [← onsets_length, ← onsets_length, onsets_congr h hscalars]

theorem seqOnsetChecks_congr (hscalars : seqScalars s) : seqOnsetChecks s = seqOnsetChecks u := by
  rw [seqOnsetChecks, seqOnsetChecks, hitCount_congr h hscalars, hitCount_congr h hscalars, hitCount_congr h hscalars,
    h.build]

/-- The drum entries are read only after the scalar checks have passed. -/
theorem seqCheck_congr : seqCheck s = seqCheck u := by
  rw [seqCheck_eq, seqCheck_eq, ← seqScalarChecks_congr h, ← seqNoteChecks_congr h, ← seqSizeChecks_congr h]
  cases hscalar : firstFault (seqScalarChecks s) with
  | some f => rw [firstFault_append_of_some _ hscalar, firstFault_append_of_some _ hscalar]
  | none => rw [seqOnsetChecks_congr h ((firstFault_seqScalarChecks_iff s).1 hscalar)]

/-- Past the scalar checks PHRASE_LEN is not 0, so that a step index is below it (R197). -/
theorem tonalPart_congr (hscalars : seqScalars s) (t : F64) : tonalPart s t = tonalPart u t := by
  obtain ⟨-, -, -, hphrase, -⟩ := hscalars
  have hindex : stepIndex s t = stepIndex u t := by rw [stepIndex, stepIndex, h.bpm, h.phraseLen]
  have hlt : stepIndex s t < s.phraseLen.toNat := Nat.mod_lt _ hphrase
  rw [tonalPart, tonalPart, h.melFreq _ hlt, h.bassFreq _ hlt, hindex, h.bpm, h.build]

theorem seqDrums_congr (hscalars : seqScalars s) (i : Nat) (rng : NoiseState) :
    seqDrums s i rng = seqDrums u i rng := by
  rw [seqDrums, seqDrums, onsets_congr h hscalars, onsets_congr h hscalars, onsets_congr h hscalars,
    sampleTime_congr h, h.build]

theorem seqRender_congr (hscalars : seqScalars s) (i n : Nat) (rng : NoiseState) :
    seqRender s i n rng = seqRender u i n rng := by
  induction n generalizing i rng with
  | zero => rfl
  | succ n ih =>
    rw [seqRender, seqRender, sampleTime_congr h, tonalPart_congr h hscalars, seqDrums_congr h hscalars, ih]

theorem seqRun_congr (hscalars : seqScalars s) : seqRun s = seqRun u := by
  rw [seqRun, seqRun, seqTotal_congr h, h.build, seqRender_congr h hscalars]

end Agreement

/-- The samples of a successful SEQ are those of the render. -/
theorem seqResult_samples {s : State} {i : Nat} (hi : i < seqTotal s) :
    (seqRun s).1[i]? = some (sampleAt (seqResult s) i) := by
  have hlen : i < (seqRun s).1.length := by rwa [seqRun_length]
  rw [seqResult, sampleAt_finish, sampleAt_storeSamples _ _ _ hlen, List.getElem?_eq_getElem hlen]

theorem seqResult_done (s : State) : (seqResult s).done = true := rfl

theorem seqResult_rng (s : State) : (seqResult s).rng = (seqRun s).2 := by
  rw [seqResult, finish_rng, storeSamples_rng]

/-- Settles O37: what the validation and the render read is the same in both states. -/
theorem seqDependsOnOperandsOnly : Obligations.SeqDependsOnOperandsOnly := by
  intro s u hwf hbuild hbpm hsrate hloops hphrase hdrum hnotes hdrums
  have h : SameSeqOperands s u :=
    ⟨hbuild, hbpm, hsrate, hloops, hphrase, hdrum, fun k hk => (hnotes k hk).1, fun k hk => (hnotes k hk).2, hdrums⟩
  have hcheck := seqCheck_congr h
  cases hs : seqCheck s with
  | some f =>
    exact ⟨_, _, exec_seq_fault hs, exec_seq_fault (hcheck.symm.trans hs), rfl, fun _ => ⟨rfl, rfl⟩, nofun⟩
  | none =>
    have hready := (seqCheck_eq_none_iff s).1 hs
    have hreadyU := (seqCheck_eq_none_iff u).1 (hcheck.symm.trans hs)
    have hscalars := hready.1
    have htotal := seqTotal_congr h
    have hrun := seqRun_congr h hscalars
    obtain ⟨hlistK, hlistS, hlistH⟩ := onsetList_seqResult hwf hready
    obtain ⟨hlistKU, hlistSU, hlistHU⟩ := onsetList_seqResult (hbuild ▸ hwf) hreadyU
    refine ⟨seqResult s, seqResult u, exec_seq_ready hready, exec_seq_ready hreadyU,
      (seqResult_done s).trans (seqResult_done u).symm, by rw [seqResult_done]; exact nofun,
      fun _ => ⟨?_, ?_, ?_, ?_, ?_, fun i hi => ?_, ?_, ?_, ?_⟩⟩
    · rw [seqResult_rng, seqResult_rng, hrun]
    · rw [seqResult_smpLen, seqResult_smpLen, htotal]
    · rw [seqResult_nK, seqResult_nK, hitCount_congr h hscalars]
    · rw [seqResult_nS, seqResult_nS, hitCount_congr h hscalars]
    · rw [seqResult_nH, seqResult_nH, hitCount_congr h hscalars]
    · rw [toNat_smpLen_seqResult hwf hready] at hi
      have hsame := seqResult_samples hi
      rw [hrun, seqResult_samples (htotal ▸ hi), Option.some.injEq] at hsame
      exact hsame.symm
    · rw [hlistK, hlistKU, onsets_congr h hscalars]
    · rw [hlistS, hlistSU, onsets_congr h hscalars]
    · rw [hlistH, hlistHU, onsets_congr h hscalars]

/-! ### The drum voices as folds over the onset lists (R199) -/

/-- The hits of one voice at time `t`: `hit` once for each onset that has `t` in its window, in list order. -/
def windowFold {σ : Type} (w t : F64) (hit : F64 → σ → σ) (os : List F64) (d : σ) : σ :=
  os.foldl (fun d o => if inWindow w (fSub t o) then hit (fSub t o) d else d) d

theorem windowFold_cons {σ : Type} (w t o : F64) (hit : F64 → σ → σ) (os : List F64) (d : σ) :
    windowFold w t hit (o :: os) d =
      windowFold w t hit os (if inWindow w (fSub t o) then hit (fSub t o) d else d) :=
  rfl

/-- Without an onset in its window a voice adds nothing. -/
theorem windowFold_silent {σ : Type} {w t : F64} (hit : F64 → σ → σ) {os : List F64} (d : σ)
    (h : ∀ o ∈ os, inWindow w (fSub t o) = false) : windowFold w t hit os d = d := by
  induction os with
  | nil => rfl
  | cons o os ih =>
    rw [List.forall_mem_cons] at h
    rw [windowFold_cons, h.1, if_neg Bool.false_ne_true, ih h.2]

/-- `windowFold` with the window tested by value (R178). -/
def valueFold {σ : Type} (w t : F64) (hit : F64 → σ → σ) (os : List F64) (d : σ) : σ :=
  os.foldl (fun d o => if 0 ≤ fUnits (fSub t o) ∧ fUnits (fSub t o) ≤ fUnits w then hit (fSub t o) d else d) d

/-- The windows are tested by value where every local time is finite. -/
theorem windowFold_eq_valueFold {σ : Type} {w t : F64} (hit : F64 → σ → σ) {os : List F64} (d : σ)
    (hw : fIsFinite w = true) (hos : ∀ o ∈ os, fIsFinite (fSub t o) = true) :
    windowFold w t hit os d = valueFold w t hit os d :=
  List.foldl_ext _ _ d fun _ o ho => by simp only [inWindow_iff hw (hos o ho)]

section Voices
variable (sin : F64 → F64) (noise : NoiseState → NoiseState × F64) (t : F64)

/-- One kick hit of R199, at the local time `dt`. -/
def kickHit (dt d : F64) : F64 := fAdd d (fMul f0_65 (kickVoice sin dt))

/-- One snare hit of R199 with its draw. -/
def snareHit (dt : F64) (d : F64 × NoiseState) : F64 × NoiseState :=
  (fAdd d.1 (fMul f0_4 (snareVoice sin dt (noise d.2).2)), (noise d.2).1)

/-- One hat hit of R199 with its draw. -/
def hatHit (dt : F64) (d : F64 × NoiseState) : F64 × NoiseState :=
  (fAdd d.1 (fMul f0_2 (hatVoice dt (noise d.2).2)), (noise d.2).1)

theorem kickHits_eq (os : List F64) (d : F64) :
    kickHits sin t os d = windowFold kickWindow t (kickHit sin) os d := by
  induction os generalizing d with
  | nil => rfl
  | cons o os ih => exact ih _

theorem snareHits_eq (os : List F64) (d : F64 × NoiseState) :
    snareHits sin noise t os d.1 d.2 = windowFold snareWindow t (snareHit sin noise) os d := by
  induction os generalizing d with
  | nil => rfl
  | cons o os ih =>
    rw [snareHits, windowFold_cons]
    split
    case isTrue => exact ih (snareHit sin noise (fSub t o) d)
    case isFalse => exact ih d

theorem hatHits_eq (os : List F64) (d : F64 × NoiseState) :
    hatHits noise t os d.1 d.2 = windowFold hatWindow t (hatHit noise) os d := by
  induction os generalizing d with
  | nil => rfl
  | cons o os ih =>
    rw [hatHits, windowFold_cons]
    split
    case isTrue => exact ih (hatHit noise (fSub t o) d)
    case isFalse => exact ih d

theorem drumPart_eq (kicks snares hats : List F64) (rng : NoiseState) :
    drumPart sin noise kicks snares hats t rng =
      windowFold hatWindow t (hatHit noise) hats
        (windowFold snareWindow t (snareHit sin noise) snares
          (windowFold kickWindow t (kickHit sin) kicks f0, rng)) := by
  rw [drumPart, hatHits_eq, kickHits_eq, ← snareHits_eq]

end Voices

/-! ### The noise state through the samples (R193, R199) -/

/-- The noise state before sample `i`: the seed, advanced by the draws of every sample before. -/
def noiseBefore (s : State) : Nat → NoiseState
  | 0 => seedOf s.build.noise
  | i + 1 => (seqDrums s i (noiseBefore s i)).2

/-- Sample `i` of the render (R200). -/
def seqSample (s : State) (i : Nat) : BitVec 16 :=
  quant (mixValue (tonalPart s (sampleTime s i)) (seqDrums s i (noiseBefore s i)).1)

theorem seqRender_eq (s : State) (i n : Nat) :
    seqRender s i n (noiseBefore s i) = ((List.range' i n).map (seqSample s), noiseBefore s (i + n)) := by
  induction n generalizing i with
  | zero => rfl
  | succ n ih =>
    have hrest : seqRender s (i + 1) n (seqDrums s i (noiseBefore s i)).2 =
        ((List.range' (i + 1) n).map (seqSample s), noiseBefore s (i + 1 + n)) := ih (i + 1)
    rw [seqRender, hrest, List.range'_succ, List.map_cons, seqSample, Nat.add_right_comm, Nat.add_assoc]

theorem seqRun_eq (s : State) :
    seqRun s = ((List.range (seqTotal s)).map (seqSample s), noiseBefore s (seqTotal s)) := by
  have hrender := seqRender_eq s 0 (seqTotal s)
  rw [Nat.zero_add, ← List.range_eq_range'] at hrender
  exact hrender

theorem sampleAt_seqResult {s : State} {i : Nat} (hi : i < seqTotal s) :
    sampleAt (seqResult s) i = seqSample s i := by
  have hsample := seqResult_samples hi
  have hrun : (seqRun s).1 = (List.range (seqTotal s)).map (seqSample s) := by rw [seqRun_eq]
  rw [hrun, List.getElem?_map, List.getElem?_range hi, Option.map_some, Option.some.injEq] at hsample
  exact hsample.symm

/-! ### The times of a render (R194 to R196) -/

theorem stepSeconds_bounds {bpm : F64} (h : positiveValue bpm) :
    fMag (stepSeconds bpm) ≤ fMag (stepSeconds fTwoM32) ∧ 0 ≤ fUnits (stepSeconds bpm) := by
  have hbeat : fMag (fDiv f60 bpm) ≤ fMag (fDiv f60 fTwoM32) :=
    fMag_fDiv_le (by decide) (by decide) le_rfl h.1 (fMag_fTwoM32_le h) (by decide +kernel)
  have hbeatMax : fIsFinite (fDiv f60 fTwoM32) = true := by decide +kernel
  have hbeat0 : 0 ≤ fUnits (fDiv f60 bpm) :=
    isRounding_nonneg (isRounding_fDiv (by decide) h.1 (positiveValue_pos h)) (by decide +kernel)
  have hbeatFin := fIsFinite_of_fMag_le hbeatMax hbeat
  exact ⟨fMag_fDiv_le hbeatMax (by decide) hbeat (by decide) le_rfl (by decide +kernel),
    isRounding_nonneg (isRounding_fDiv hbeatFin (by decide) (by decide +kernel))
      (Int.mul_nonneg hbeat0 oneUnits_pos_int.le)⟩

theorem fIsFinite_stepSeconds {bpm : F64} (h : positiveValue bpm) : fIsFinite (stepSeconds bpm) = true :=
  fIsFinite_of_fMag_le (by decide +kernel) (stepSeconds_bounds h).1

section Times
variable {s : State} (hscalars : seqScalars s)
include hscalars

/-- An onset time is a finite number, not negative. -/
theorem onsets_bounds {b : Nat} {o : F64} (ho : o ∈ onsets s b) : fIsFinite o = true ∧ 0 ≤ fUnits o := by
  have hsteps := totalSteps_le hscalars
  obtain ⟨hbpm, -⟩ := hscalars
  simp only [onsets, List.mem_map, List.mem_filter, List.mem_range] at ho
  obtain ⟨g, ⟨hg, -⟩, rfl⟩ := ho
  obtain ⟨hstep, hstep0⟩ := stepSeconds_bounds hbpm
  obtain ⟨hgFin, hg0, hgle⟩ := timeValue_ofNatF (i := g) (by omega)
  have hmag : fMag (ofNatF g) ≤ fMag fTwo32 := fMag_le_of_fUnits_le hg0 (by rw [fUnits_fTwo32]; exact hgle)
  have hmax : fIsFinite (fMul fTwo32 (stepSeconds fTwoM32)) = true := by decide +kernel
  exact ⟨fIsFinite_of_fMag_le hmax (fMag_fMul_le (by decide) (by decide +kernel) hmag hstep),
    isRounding_nonneg (isRounding_fMul hgFin (fIsFinite_stepSeconds hbpm)) (Int.mul_nonneg hg0 hstep0)⟩

/-- Rounding keeps the order of the steps. -/
theorem onsets_ascend (b : Nat) : (onsets s b).Pairwise fun x y => fUnits x ≤ fUnits y := by
  have hsteps := totalSteps_le hscalars
  obtain ⟨hbpm, -⟩ := hscalars
  have hfin := fIsFinite_stepSeconds hbpm
  obtain ⟨-, hstep0⟩ := stepSeconds_bounds hbpm
  have hrange : (List.range (totalSteps s)).Pairwise fun g h => g < h ∧ h < 2 ^ 32 :=
    List.pairwise_lt_range.imp_of_mem fun _ hh hlt => ⟨hlt, (List.mem_range.1 hh).trans_le hsteps⟩
  refine List.pairwise_map.2 ((hrange.filter _).imp fun {g h} hgh => ?_)
  obtain ⟨hgFin, hg⟩ := ofNatF_exact (n := g) (by omega)
  obtain ⟨hhFin, hh⟩ := ofNatF_exact (n := h) (by omega)
  refine isRounding_mono (isRounding_fMul hgFin hfin) (isRounding_fMul hhFin hfin) ?_
  rw [hg, hh]
  have hle : (g : Int) ≤ h := by omega
  exact Int.mul_le_mul_of_nonneg_right
    (Int.mul_le_mul_of_nonneg_right (Int.mul_le_mul_of_nonneg_right hle oneUnits_pos_int.le) hstep0)
    oneUnits_pos_int.le

theorem timeValue_seqTime {i : Nat} (hi : i ≤ 2 ^ 32) : timeValue (sampleTime s i) := by
  obtain ⟨-, hrate, -⟩ := hscalars
  exact timeValue_fDiv (timeValue_ofNatF hi) (srateF_exact s).1 (srateF_ge_one hrate)

/-- The drums of a sample, the windows tested by value (R178, R199). -/
theorem seqDrums_by_value {i : Nat} (rng : NoiseState) (hi : i ≤ 2 ^ 32) :
    seqDrums s i rng =
      valueFold hatWindow (sampleTime s i) (hatHit (noiseOf s.build.noise)) (onsets s 2)
        (valueFold snareWindow (sampleTime s i) (snareHit (sinOf s.build.sin) (noiseOf s.build.noise)) (onsets s 1)
          (valueFold kickWindow (sampleTime s i) (kickHit (sinOf s.build.sin)) (onsets s 0) f0, rng)) := by
  obtain ⟨htime, htime0, -⟩ := timeValue_seqTime hscalars hi
  have hlocal (b : Nat) : ∀ o ∈ onsets s b, fIsFinite (fSub (sampleTime s i) o) = true := fun o ho => by
    obtain ⟨hfin, h0⟩ := onsets_bounds hscalars ho
    exact fIsFinite_fSub_of_nonneg htime hfin htime0 h0
  rw [seqDrums, drumPart_eq, windowFold_eq_valueFold _ _ (by decide) (hlocal 2),
    windowFold_eq_valueFold _ _ (by decide) (hlocal 1), windowFold_eq_valueFold _ _ (by decide) (hlocal 0)]

end Times

/-- Settles O39: each list is one of the pre-pass. -/
theorem onsetListsAscend : Obligations.OnsetListsAscend := by
  intro s t l hwf hexec hdone hl
  obtain ⟨hready, rfl⟩ := exec_seq_done hexec hdone
  obtain ⟨hkicks, hsnares, hhats⟩ := onsetList_seqResult hwf hready
  rw [hkicks, hsnares, hhats] at hl
  obtain rfl | rfl | rfl := hl
  all_goals exact onsets_ascend hready.1 _

/-! ### The command SEQ (R190, R198 to R201) -/

/-- Settles O38: every part of the mix is +0.0. -/
theorem seqSilentWhereNothingSounds : Obligations.SeqSilentWhereNothingSounds := by
  rintro s t hwf hexec hdone i _ _ hi rfl rfl hmel hbass hkicks hsnares hhats
  obtain ⟨hready, rfl⟩ := exec_seq_done hexec hdone
  obtain ⟨hlistK, hlistS, hlistH⟩ := onsetList_seqResult hwf hready
  rw [hlistK] at hkicks
  rw [hlistS] at hsnares
  rw [hlistH] at hhats
  rw [toNat_smpLen_seqResult hwf hready] at hi
  have htonal : tonalPart s (sampleTime s i) = fAdd f0 f0 := by
    rw [tonalPart, melPart, bassPart, if_pos ((isRest_iff _).2 hmel), if_pos ((isRest_iff _).2 hbass)]
  have hdrums : seqDrums s i (noiseBefore s i) = (f0, noiseBefore s i) := by
    rw [seqDrums, drumPart_eq, windowFold_silent (w := kickWindow) _ _ hkicks,
      windowFold_silent (w := snareWindow) _ _ hsnares, windowFold_silent (w := hatWindow) _ _ hhats]
  have hsilence : quant (mixValue (fAdd f0 f0) f0) = 0 := by decide +kernel
  rw [sampleAt_seqResult hi, seqSample, htonal, hdrums, hsilence]

theorem finish_of_resultsOnly {s e : State} (h : resultsOnly s e) (hresult : e.result = s.result)
    (hout : e.outLen = s.outLen) :
    finish e =
      { s with
        mem := (finish e).mem, smpLen := (finish e).smpLen, rng := (finish e).rng, nK := (finish e).nK
        nS := (finish e).nS, nH := (finish e).nH, running := none, done := true } := by
  rw [resultsOnly, hresult, hout] at h
  exact congrArg finish h

/-- SEQ changes the results R52 names for it and the flags of its end (R190). -/
theorem seqResult_frame (s : State) :
    seqResult s =
      { s with
        mem := (seqResult s).mem, smpLen := (seqResult s).smpLen, rng := (seqResult s).rng, nK := (seqResult s).nK
        nS := (seqResult s).nS, nH := (seqResult s).nH, running := none, done := true } :=
  finish_of_resultsOnly (resultsOnly_trans (resultsOnly_storeOnsets ..) (resultsOnly_storeSamples ..))
    (by rw [storeSamples_result, storeOnsets_result]) (by rw [storeSamples_outLen, storeOnsets_outLen])

theorem readByte_storeOnsets_of_not_storedIn {kicks snares hats : List F64} {a : Nat} (s : State)
    (hkicks : ¬ storedIn .onsK kicks.length a) (hsnares : ¬ storedIn .onsS snares.length a)
    (hhats : ¬ storedIn .onsH hats.length a) :
    readByte (storeOnsets kicks snares hats s) a = readByte s a := by
  rw [readByte_congr (storeOnsets_mem ..) (storeOnsets_resets ..), readByte_storeElems_of_not_storedIn _ hhats,
    readByte_storeElems_of_not_storedIn _ hsnares, readByte_storeElems_of_not_storedIn _ hkicks]

theorem readByte_seqResult {s : State} {a : Nat} (hsmp : ¬ storedIn .smp (seqTotal s) a)
    (hkicks : ¬ storedIn .onsK (hitCount s 0) a) (hsnares : ¬ storedIn .onsS (hitCount s 1) a)
    (hhats : ¬ storedIn .onsH (hitCount s 2) a) : readByte (seqResult s) a = readByte s a := by
  rw [← onsets_length] at hkicks hsnares hhats
  rw [← seqRun_length] at hsmp
  rw [seqResult, readByte_congr (finish_mem _) (finish_resets _), readByte_storeSamples_of_not_storedIn _ hsmp,
    readByte_storeOnsets_of_not_storedIn s hkicks hsnares hhats]

theorem melPart_eq_ite (sin : F64 → F64) (f step stepT t : F64) :
    melPart sin f step stepT t =
      if f = 0 then f0
      else
        fMul (fAdd (fMul f0_72 (sin (fMul (fMul fTwoPi f) t)))
            (fMul f0_28 (sin (fMul f2 (fMul (fMul fTwoPi f) t)))))
          (envelope stepT f0_005 f0_08 f0_58 f0_04 step) := by
  simp only [melPart, isRest_iff]

theorem bassPart_eq_ite (sin : F64 → F64) (f step stepT t : F64) :
    bassPart sin f step stepT t =
      if f = 0 then f0
      else
        fMul
          (fMul (fAdd (fMul f0_82 (sin (fMul (fMul fTwoPi f) t)))
              (fMul f0_18 (sin (fMul fHalf (fMul (fMul fTwoPi f) t)))))
            (envelope stepT f0_005 f0_05 f0_72 f0_03 step))
          f0_75 := by
  simp only [bassPart, isRest_iff]

/-- Settles O35: the validation passes, and each part of the statement is a fact about `seqResult`. -/
theorem seqRendersMix : Obligations.SeqRendersMix := by
  rintro s step sr hwf hready hstep hsr
  obtain ⟨hnK, hnS, hnH⟩ := toNat_counts_seqResult hwf hready
  obtain ⟨hlistK, hlistS, hlistH⟩ := onsetList_seqResult hwf hready
  have hlen := toNat_smpLen_seqResult hwf hready
  obtain ⟨htotal, -⟩ := seq_lengths_le hwf hready
  obtain rfl : stepSeconds s.bpm = step := hstep.symm
  obtain rfl : srateF s = sr := hsr.symm
  refine ⟨seqResult s, exec_seq_ready hready, seqResult_frame s, hlen, hnK, hnS, hnH,
    ⟨noiseBefore s, rfl, by rw [hlen, seqResult_rng, seqRun_eq], fun i hi => ?_⟩,
    fun a hsmp hkicks hsnares hhats => ?_⟩
  · intro time stepT wm wb mel bass kicks k snares drums htime hk hstepT hwm hwb hmel hbass hkicks hsnares hdrums
    rw [hlen] at hi
    obtain rfl : sampleTime s i = time := htime.symm
    obtain rfl : stepIndex s (sampleTime s i) = k := hk.symm
    have hmelPart : mel = melPart (sinOf s.build.sin) (melFreq s (stepIndex s (sampleTime s i)))
        (stepSeconds s.bpm) stepT (sampleTime s i) := by
      rw [hmel, hwm, melPart_eq_ite]
      rfl
    have hbassPart : bass = bassPart (sinOf s.build.sin) (bassFreq s (stepIndex s (sampleTime s i)))
        (stepSeconds s.bpm) stepT (sampleTime s i) := by
      rw [hbass, hwb, bassPart_eq_ite]
      rfl
    have hseqDrums : drums = seqDrums s i (noiseBefore s i) := by
      rw [hdrums, hsnares, hkicks, hlistK, hlistS, hlistH, seqDrums_by_value hready.1 _ (by omega)]
      rfl
    refine ⟨by rw [hseqDrums, noiseBefore], ?_⟩
    rw [sampleAt_seqResult hi, hseqDrums, hmelPart, hbassPart, hstepT]
    rfl
  · rw [hlen] at hsmp
    rw [hnK] at hkicks
    rw [hnS] at hsnares
    rw [hnH] at hhats
    exact readByte_seqResult hsmp hkicks hsnares hhats

end Sys2Proof.Machine

/-! PROOFS. The PCM writer (`45_pcm_writer.md`): a container in OUT read back as bytes, the validation of PCMW by value,
the fields of its header and the bytes of its samples, and what the two container writers depend on. -/

namespace Sys2Proof.Machine

/-! ### A container in OUT (R44, R220, R230) -/

/-- What a container writer leaves when it succeeds: its bytes in OUT, their number, and the flags of its end. -/
def containerResult (bytes : List Byte) (s : State) : State := finish (writeOut bytes s)

theorem containerResult_outLen (bytes : List Byte) (s : State) :
    (containerResult bytes s).outLen = BitVec.ofNat 32 bytes.length := rfl

theorem containerResult_frame (bytes : List Byte) (s : State) :
    containerResult bytes s =
      { s with
        mem := (containerResult bytes s).mem, outLen := (containerResult bytes s).outLen
        running := none, done := true } := by
  unfold containerResult writeOut
  rw [storeElems_eq]
  rfl

theorem readByte_containerResult {bytes : List Byte} {a : Nat} (s : State) (h : ¬ storedIn .out bytes.length a) :
    readByte (containerResult bytes s) a = readByte s a :=
  (readByte_congr rfl rfl a).trans
    (readByte_storeElems_of_not_storedIn (vs := outWords bytes) s (by rwa [outWords_length]))

theorem outByte_containerResult {bytes : List Byte} (s : State) {b : Nat} (hb : b < bytes.length) :
    outByte (containerResult bytes s) b = bytes[b] := by
  have hstored : loadElem (containerResult bytes s) .out b = loadElem (storeElems .out 0 (outWords bytes) s) .out b :=
    loadElem_congr rfl rfl .out b
  have hword := loadElem_storeElems_same .out 0 (outWords bytes) s (j := b) (by rwa [outWords_length])
  rw [Nat.zero_add] at hword
  rw [outByte, hstored, hword]
  apply BitVec.eq_of_toNat_eq
  simpa [outWords, tableBits] using bytes[b].isLt

/-- A stretch of OUT holds the same stretch of the container. -/
theorem outBytes_containerResult {bytes : List Byte} (s : State) {off n : Nat} (h : off + n ≤ bytes.length) :
    outBytes (containerResult bytes s) off n = (bytes.drop off).take n := by
  refine List.ext_getElem (by simp [outBytes]; omega) fun j hj _ => ?_
  have hjn : j < n := by simpa [outBytes] using hj
  simp only [outBytes, List.getElem_map, List.getElem_range, List.getElem_take, List.getElem_drop]
  exact outByte_containerResult s (by omega)

/-- OUT holds the whole container below OUT_LEN. -/
theorem outBytes_containerResult_all {bytes : List Byte} (s : State) (h : bytes.length ≤ 2 ^ 25) :
    outBytes (containerResult bytes s) 0 (containerResult bytes s).outLen.toNat = bytes := by
  rw [containerResult_outLen, toNat_ofNat_of_le h, outBytes_containerResult s (by omega), List.drop_zero,
    List.take_length]

/-! ### Integers and samples as bytes (R11, R223) -/

theorem leValue_u16le {v : Nat} (h : v < 2 ^ 16) : leValue (u16le v) = v := by
  simp only [u16le, leValue, BitVec.toNat_ofNat]
  omega

theorem leValue_u32le {v : Nat} (h : v < 2 ^ 32) : leValue (u32le v) = v := by
  simp only [u32le, leValue, BitVec.toNat_ofNat]
  omega

theorem u16le_toNat (v : BitVec 16) : u16le v.toNat = [v.extractLsb' 0 8, v.extractLsb' 8 8] := by
  simp only [u16le, BitVec.extractLsb', Nat.shiftRight_eq_div_pow, Nat.pow_zero, Nat.div_one]

/-- The two bytes of sample `i` stand at `2 * i`, low byte first. -/
theorem getElem?_sampleBytes (samples : List (BitVec 16)) (i : Nat) :
    (sampleBytes samples)[2 * i]? = samples[i]?.map (·.extractLsb' 0 8) ∧
      (sampleBytes samples)[2 * i + 1]? = samples[i]?.map (·.extractLsb' 8 8) := by
  induction samples generalizing i with
  | nil => exact ⟨rfl, rfl⟩
  | cons v vs ih =>
    have hcons : sampleBytes (v :: vs) = v.extractLsb' 0 8 :: v.extractLsb' 8 8 :: sampleBytes vs := by
      rw [sampleBytes, List.flatMap_cons, u16le_toNat]
      rfl
    rw [hcons]
    cases i with
    | zero => exact ⟨rfl, rfl⟩
    | succ i => exact ih i

/-! ### PCMW (R220 to R223) -/

theorem pcmwCheck_eq (s : State) :
    pcmwCheck s =
      firstFault
        [(decide (rateValue s.srate), badParam 0x058),
          (decide (s.smpLen.toNat ≤ s.build.caps.maxSamples), capacityFault 3 s.smpLen.toNat),
          (decide (44 + 2 * s.smpLen.toNat ≤ s.build.caps.maxOut), capacityFault 8 (44 + 2 * s.smpLen.toNat))] := by
  rw [pcmwCheck, srateOk_eq_decide]

theorem pcmwCheck_eq_none_iff (s : State) : pcmwCheck s = none ↔ pcmwReady s := by
  simp only [pcmwCheck_eq, firstFault_eq_none, List.forall_mem_cons, List.not_mem_nil, false_imp_iff, implies_true,
    decide_eq_true_eq, and_true]

theorem exec_pcmw_ready {s : State} (h : pcmwReady s) : exec .pcmw s = .next (containerResult (wavBytes s) s) := by
  rw [exec_eq, commandCheck, (pcmwCheck_eq_none_iff s).2 h, runCommand_none]
  rfl

theorem exec_pcmw_fault {s : State} {f : FaultRecord} (h : pcmwCheck s = some f) :
    exec .pcmw s = .next (raiseFault f s) := by
  rw [exec_eq, commandCheck, h, runCommand_some]

theorem wavHeader_length (n sr : Nat) : (wavHeader n sr).length = 44 := by simp [wavHeader]

/-- The `len` bytes of the header from `off` on (R221). -/
def wavField (n sr off len : Nat) : List Byte := ((wavHeader n sr).drop off).take len

/-- The header is the first 44 bytes of the container, so a field of it is read there. -/
theorem outBytes_wavField (s : State) {off len : Nat} (h : off + len ≤ 44) :
    outBytes (containerResult (wavBytes s) s) off len = wavField s.smpLen.toNat s.srate.toNat off len := by
  have hlen := wavHeader_length s.smpLen.toNat s.srate.toNat
  rw [outBytes_containerResult s (by rw [wavBytes_length]; omega), wavBytes,
    List.drop_append_of_le_length (by omega), List.take_append_of_le_length (by rw [List.length_drop]; omega), wavField]

/-- The four tags of the header (R221). -/
theorem wavField_tags (n sr : Nat) :
    wavField n sr 0 4 = [0x52#8, 0x49#8, 0x46#8, 0x46#8] ∧ wavField n sr 8 4 = [0x57#8, 0x41#8, 0x56#8, 0x45#8] ∧
      wavField n sr 12 4 = [0x66#8, 0x6D#8, 0x74#8, 0x20#8] ∧
      wavField n sr 36 4 = [0x64#8, 0x61#8, 0x74#8, 0x61#8] := by
  simp [wavField, wavHeader, u32le, u16le]

/-- The sizes in the header and its two rates (R221). -/
theorem wavField_sizes (n sr : Nat) :
    wavField n sr 4 4 = u32le (36 + 2 * n) ∧ wavField n sr 16 4 = u32le 16 ∧ wavField n sr 24 4 = u32le sr ∧
      wavField n sr 28 4 = u32le (sr * 2) ∧ wavField n sr 40 4 = u32le (2 * n) := by
  simp [wavField, wavHeader, u32le, u16le]

/-- The format, the channels, the bytes of a frame and the bits of a sample (R221). -/
theorem wavField_format (n sr : Nat) :
    wavField n sr 20 2 = u16le 1 ∧ wavField n sr 22 2 = u16le 1 ∧ wavField n sr 32 2 = u16le 2 ∧
      wavField n sr 34 2 = u16le 16 := by
  simp [wavField, wavHeader, u32le, u16le]

/-- The samples follow the header, two bytes each (R223). -/
theorem outByte_wavSample (s : State) {i : Nat} (hi : i < s.smpLen.toNat) :
    outByte (containerResult (wavBytes s) s) (44 + 2 * i) = (sampleAt s i).extractLsb' 0 8 ∧
      outByte (containerResult (wavBytes s) s) (45 + 2 * i) = (sampleAt s i).extractLsb' 8 8 := by
  have hsample : (smpSamples s)[i]? = some (sampleAt s i) := by
    rw [smpSamples, List.getElem?_map, List.getElem?_range hi, Option.map_some]
  have hbehind (j : Nat) : (wavBytes s)[44 + j]? = (sampleBytes (smpSamples s))[j]? := by
    rw [wavBytes, List.getElem?_append_right (by rw [wavHeader_length]; omega), wavHeader_length,
      Nat.add_sub_cancel_left]
  obtain ⟨hlow, hhigh⟩ := getElem?_sampleBytes (smpSamples s) i
  rw [← hbehind, hsample, Option.map_some, List.getElem?_eq_some_iff] at hlow hhigh
  obtain ⟨hlowLt, hlow⟩ := hlow
  obtain ⟨hhighLt, hhigh⟩ := hhigh
  refine ⟨(outByte_containerResult s hlowLt).trans hlow, ?_⟩
  rw [show 45 + 2 * i = 44 + (2 * i + 1) by omega]
  exact (outByte_containerResult s hhighLt).trans hhigh

/-- Settles O41: each field is a stretch of the header, and no size in it exceeds 32 bits. -/
theorem pcmwWritesContainer : Obligations.PcmwWritesContainer := by
  intro s hwf hready
  have hcap : s.build.caps.maxOut ≤ 2 ^ 25 := tableWords_le hwf .out
  have ⟨⟨_, hrate⟩, _, hout⟩ := hready
  have hfield {off len : Nat} (h : off + len ≤ 44) := outBytes_wavField s h
  obtain ⟨hriff, hwave, hfmt, hdata⟩ := wavField_tags s.smpLen.toNat s.srate.toNat
  obtain ⟨hsize, hfmtSize, hsrate, hbyteRate, hdataSize⟩ := wavField_sizes s.smpLen.toNat s.srate.toNat
  obtain ⟨hformat, hchannels, halign, hbits⟩ := wavField_format s.smpLen.toNat s.srate.toNat
  refine ⟨containerResult (wavBytes s) s, exec_pcmw_ready hready, containerResult_frame _ s, ?_,
    (hfield (by decide)).trans hriff, ?_, (hfield (by decide)).trans hwave, (hfield (by decide)).trans hfmt,
    ?_, ?_, ?_, ?_, ?_, ?_, ?_, (hfield (by decide)).trans hdata, ?_, fun i hi => outByte_wavSample s hi,
    fun a ha => readByte_containerResult s (by rwa [wavBytes_length])⟩
  · rw [containerResult_outLen, wavBytes_length, toNat_ofNat_of_le (by omega)]
  · rw [hfield (by decide), hsize, leValue_u32le (by omega)]
  · rw [hfield (by decide), hfmtSize, leValue_u32le (by decide)]
  · rw [hfield (by decide), hformat, leValue_u16le (by decide)]
  · rw [hfield (by decide), hchannels, leValue_u16le (by decide)]
  · rw [hfield (by decide), hsrate, leValue_u32le (by omega)]
  · rw [hfield (by decide), hbyteRate, leValue_u32le (by omega), Nat.mul_comm]
  · rw [hfield (by decide), halign, leValue_u16le (by decide)]
  · rw [hfield (by decide), hbits, leValue_u16le (by decide)]
  · rw [hfield (by decide), hdataSize, leValue_u32le (by omega)]

/-- Settles O42: the checks before the failing one pass; without samples O41 gives the header alone. -/
theorem pcmwRejectsFirstBadOperand : Obligations.PcmwRejectsFirstBadOperand := by
  intro s
  have hlt := s.smpLen.isLt
  refine ⟨fun hrate => ?_, fun hrate hcap => ?_, fun hrate hcap hout => ?_, fun hwf hrate hzero => ?_⟩
  · refine exec_pcmw_fault (f := badParam 0x058) ?_
    rw [pcmwCheck_eq, firstFault_fail _ _ hrate]
  · rw [← capacityFault_of_lt (by decide) (by omega)]
    refine exec_pcmw_fault ?_
    rw [pcmwCheck_eq, firstFault_pass _ _ hrate, firstFault_fail _ _ (Nat.not_le.2 hcap)]
  · rw [← capacityFault_of_lt (by decide) (by omega)]
    refine exec_pcmw_fault ?_
    rw [pcmwCheck_eq, firstFault_pass _ _ hrate, firstFault_pass _ _ hcap, firstFault_fail _ _ (Nat.not_le.2 hout)]
  · have hlen : s.smpLen.toNat = 0 := by rw [hzero]; rfl
    have hheader : 57 ≤ s.build.caps.maxOut := by
      simp only [Caps.wf, Bool.and_eq_true, decide_eq_true_eq] at hwf
      omega
    obtain ⟨t, hexec, hframe, houtLen, -, hsize, -, -, -, -, -, -, -, -, -, -, hdataSize, -⟩ :=
      pcmwWritesContainer s hwf ⟨hrate, by omega, by omega⟩
    refine ⟨t, hexec, by rw [hframe], by rw [hframe], ?_, by rw [hsize, hlen], by rw [hdataSize, hlen]⟩
    exact BitVec.eq_of_toNat_eq (by rw [houtLen, hlen]; rfl)

/-! ### What the container writers depend on (R224 (c), R240 (f)) -/

/-- Two ends of a container writer are alike: the same fault, or the same bytes in OUT. -/
def sameContainerEnd (t v : State) : Prop :=
  t.done = v.done ∧ (t.done = false → t.fcode = v.fcode ∧ t.finfo = v.finfo) ∧
    (t.done = true → t.outLen = v.outLen ∧ outBytes t 0 t.outLen.toNat = outBytes v 0 v.outLen.toNat)

/-- Two containers of the same bytes read alike. -/
theorem sameContainerEnd_containerResult {bytes bytes' : List Byte} (s u : State) (hsame : bytes = bytes')
    (h : bytes.length ≤ 2 ^ 25) : sameContainerEnd (containerResult bytes s) (containerResult bytes' u) := by
  subst hsame
  exact ⟨rfl, fun hdone => Bool.noConfusion hdone,
    fun _ => ⟨rfl, (outBytes_containerResult_all s h).trans (outBytes_containerResult_all u h).symm⟩⟩

theorem sameContainerEnd_raiseFault (f : FaultRecord) (s u : State) :
    sameContainerEnd (raiseFault f s) (raiseFault f u) :=
  ⟨rfl, fun _ => ⟨rfl, rfl⟩, fun hdone => Bool.noConfusion hdone⟩

/-- A container writer ends alike in two states with the same validation and, where it passes, the same bytes. -/
theorem exec_sameContainerEnd {i : Instr} {s u : State} {bytes : State → List Byte}
    (heffect : commandEffect i = fun s => writeOut (bytes s) s) (hcheck : commandCheck i s = commandCheck i u)
    (hbytes : commandCheck i s = none → bytes s = bytes u ∧ (bytes s).length ≤ 2 ^ 25) :
    ∃ t v, exec i s = .next t ∧ exec i u = .next v ∧ sameContainerEnd t v := by
  rw [exec_eq, exec_eq, ← hcheck, heffect]
  cases hs : commandCheck i s with
  | some f => exact ⟨_, _, rfl, rfl, sameContainerEnd_raiseFault f s u⟩
  | none =>
    obtain ⟨hsame, hlen⟩ := hbytes hs
    exact ⟨_, _, rfl, rfl, sameContainerEnd_containerResult s u hsame hlen⟩

/-- PCMW reads no sample from SMP_LEN on (R220). -/
theorem wavBytes_congr {s u : State} (hrate : s.srate = u.srate) (hlen : s.smpLen = u.smpLen)
    (hsamples : ∀ j, j < s.smpLen.toNat → sampleAt s j = sampleAt u j) : wavBytes s = wavBytes u := by
  have hsmp : smpSamples s = smpSamples u := by
    rw [smpSamples, smpSamples, ← hlen]
    exact List.map_congr_left fun j hj => hsamples j (List.mem_range.1 hj)
  rw [wavBytes, wavBytes, hsmp, hrate, hlen]

/-- A row of a raster with `h` rows of `4 * w` bytes lies inside its `w * h * 4` bytes (R235). -/
theorem pixelIndex_lt {w h y b : Nat} (hy : y < h) (hb : b < 4 * w) : y * 4 * w + b < w * h * 4 :=
  calc y * 4 * w + b < (y + 1) * (4 * w) := by linarith
    _ ≤ h * (4 * w) := Nat.mul_le_mul_right _ hy
    _ = w * h * 4 := by ring

/-- With PIX_LEN as R231 (1) asks, PNGE reads no pixel byte from PIX_LEN on (R235). -/
theorem pngBytes_congr {s u : State} (hbuild : s.build = u.build) (hw : s.pixW = u.pixW) (hh : s.pixH = u.pixH)
    (hlen : s.pixLen.toNat = s.pixW.toNat * s.pixH.toNat * 4)
    (hpix : ∀ b, b < s.pixLen.toNat → pixByte s b = pixByte u b) : pngBytes s = pngBytes u := by
  have hrow {y : Nat} (hy : y < s.pixH.toNat) : rasterRow s y = rasterRow u y := by
    rw [rasterRow, rasterRow, ← hw]
    refine congrArg _ (List.map_congr_left fun b hb => hpix _ ?_)
    rw [hlen]
    exact pixelIndex_lt hy (List.mem_range.1 hb)
  have hraw : rasterRaw s = rasterRaw u := by
    rw [rasterRaw, rasterRaw, ← hh]
    exact List.flatMap_congr fun y hy => hrow (List.mem_range.1 hy)
  rw [pngBytes, pngBytes, hraw, hw, hh, hbuild]

theorem pixLen_of_pngeScalarChecks {s : State} (h : firstFault (pngeScalarChecks s) = none) :
    s.pixLen.toNat = s.pixW.toNat * s.pixH.toNat * 4 := by
  rw [firstFault_eq_none, pngeScalarChecks, List.forall_mem_cons] at h
  exact beq_iff_eq.1 h.1

/-- Settles O48: both validations read only what the states agree on, and so do the bytes written when they pass; PNGE
reads pixels only after PIX_LEN has been found right. -/
theorem containersDependOnOperandsOnly : Obligations.ContainersDependOnOperandsOnly := by
  rintro i s u hwf hbuild (⟨rfl, hrate, hlen, hsamples⟩ | ⟨rfl, hw, hh, hlen, hpix⟩)
  · refine exec_sameContainerEnd (bytes := wavBytes) rfl ?_ fun hcheck => ⟨wavBytes_congr hrate hlen hsamples, ?_⟩
    · rw [commandCheck, pcmwCheck_eq, pcmwCheck_eq, hrate, hlen, hbuild]
    · rw [wavBytes_length]
      exact (wavLength_le hcheck).trans (tableWords_le hwf .out)
  · have hscalar : pngeScalarChecks s = pngeScalarChecks u := by
      rw [pngeScalarChecks, pngeScalarChecks, hw, hh, hlen, hbuild]
    have hbytes (h : firstFault (pngeScalarChecks s) = none) : pngBytes s = pngBytes u :=
      pngBytes_congr hbuild hw hh (pixLen_of_pngeScalarChecks h) hpix
    refine exec_sameContainerEnd (bytes := pngBytes) rfl ?_ fun hcheck => ⟨hbytes ?_, ?_⟩
    · rw [commandCheck, pngeCheck_eq, pngeCheck_eq, ← hscalar]
      cases hs : firstFault (pngeScalarChecks s) with
      | some f => rw [firstFault_append_of_some _ hs, firstFault_append_of_some _ hs]
      | none => rw [pngeSizeChecks, pngeSizeChecks, hbytes hs, hbuild]
    · rw [commandCheck, pngeCheck_eq] at hcheck
      exact (firstFault_append_eq_none.1 hcheck).1
    · exact (pngLength_le hcheck).trans (tableWords_le hwf .out)

end Sys2Proof.Machine

/-! PROOFS. The raster encoder (`46_raster_encoder.md`): what the inflater consumes and what it makes of stored blocks,
the laws of the compressors, and the container and the validation of PNGE. -/

namespace Sys2Proof.Machine

/-! ### Bits and bytes (R11, R236) -/

theorem takeBits_testBit (n x : Nat) (rest : List Bool) :
    takeBits n ((List.range n).map x.testBit ++ rest) = some (x % 2 ^ n, rest) := by
  induction n generalizing x with
  | zero => simp [takeBits, Nat.mod_one]
  | succ n ih =>
    have hshift : x.testBit ∘ Nat.succ = (x / 2).testBit := funext fun i => (Nat.testBit_div_two x i).symm
    rw [List.range_succ_eq_map, List.map_cons, List.map_map, hshift, List.cons_append, takeBits, ih]
    simp only [Nat.toNat_testBit, Nat.pow_zero, Nat.div_one, pow_succ', Nat.mod_mul]

theorem takeBits_bitsOfByte (b : Byte) (rest : List Bool) :
    takeBits 8 (bitsOfByte b ++ rest) = some (b.toNat, rest) := by
  have hbits : bitsOfByte b = (List.range 8).map b.toNat.testBit := rfl
  rw [hbits, takeBits_testBit, Nat.mod_eq_of_lt b.isLt]

theorem takeBytes_bitsOfBytes (bytes : List Byte) (rest : List Bool) :
    takeBytes bytes.length (bitsOfBytes bytes ++ rest) = some (bytes, rest) := by
  induction bytes with
  | nil => rfl
  | cons b bs ih =>
    rw [bitsOfBytes_cons, List.append_assoc, List.length_cons, takeBytes, takeBits_bitsOfByte]
    simp only [ih, BitVec.ofNat_toNat, BitVec.setWidth_eq]

theorem bitsOfByte_ofNat (n : Nat) : bitsOfByte (BitVec.ofNat 8 n) = (List.range 8).map n.testBit := by
  refine List.map_congr_left fun i hi => ?_
  rw [BitVec.getLsbD_ofNat, decide_eq_true (List.mem_range.1 hi), Bool.true_and]

theorem takeBits_u16le {n : Nat} (h : n < 2 ^ 16) (rest : List Bool) :
    takeBits 16 (bitsOfBytes (u16le n) ++ rest) = some (n, rest) := by
  have hhigh : (n / 2 ^ 8).testBit = n.testBit ∘ (8 + ·) :=
    funext fun i => by rw [Nat.testBit_div_two_pow, Function.comp_apply, Nat.add_comm]
  have hbits : bitsOfBytes (u16le n) = (List.range (8 + 8)).map n.testBit := by
    rw [u16le, bitsOfBytes_cons, bitsOfBytes_cons, bitsOfBytes_nil, List.append_nil, bitsOfByte_ofNat,
      bitsOfByte_ofNat, hhigh, List.range_add, List.map_append, List.map_map]
  rw [hbits, takeBits_testBit, Nat.mod_eq_of_lt h]

/-- The second length of a stored block is the complement of the first (R237). -/
theorem add_xor_ffff {n : Nat} (h : n ≤ 65535) : n + (n ^^^ 0xFFFF) = 65535 := by
  have hnot := congrArg BitVec.toNat (BitVec.xor_allOnes (x := BitVec.ofNat 16 n))
  rw [BitVec.toNat_xor, BitVec.toNat_not, BitVec.toNat_ofNat, Nat.mod_eq_of_lt (by omega), BitVec.toNat_allOnes] at hnot
  change n ^^^ 0xFFFF = 65535 - n at hnot
  omega

/-! ### Stored blocks (R237) -/

/-- A stored block is read from behind its three header bits: five bits of padding, the lengths, the bytes. What
follows a block begins on a byte boundary, which `hrest` says. -/
theorem inflateStored_storedBlock {piece : List Byte} {pad rest : List Bool} (out : List Byte)
    (hlen : piece.length ≤ 65535) (hpad : pad.length = 5) (hrest : rest.length % 8 = 0) :
    inflateStored (pad ++ bitsOfBytes (u16le piece.length ++ u16le (piece.length ^^^ 0xFFFF) ++ piece) ++ rest) out =
      some (piece.reverse ++ out, rest) := by
  have hcomp := add_xor_ffff hlen
  have haligned : (pad ++ bitsOfBytes (u16le piece.length ++ u16le (piece.length ^^^ 0xFFFF) ++ piece) ++ rest).length
      % 8 = pad.length := by
    simp only [List.length_append, bitsOfBytes_length]
    omega
  rw [inflateStored, haligned, List.append_assoc, List.drop_left]
  simp only [bitsOfBytes_append, List.append_assoc]
  rw [takeBits_u16le (by omega)]
  simp only [takeBits_u16le (show piece.length ^^^ 0xFFFF < 2 ^ 16 by omega), hcomp, takeBytes_bitsOfBytes, if_true]

theorem inflateBlocks_storedBlock (window fuel : Nat) (final : Bool) {piece : List Byte} {rest : List Bool}
    (out : List Byte) (hlen : piece.length ≤ 65535) (hrest : rest.length % 8 = 0) :
    inflateBlocks window (fuel + 1) (bitsOfBytes (storedBlock final piece) ++ rest) out =
      if final then some (piece.reverse ++ out, rest)
      else inflateBlocks window fuel rest (piece.reverse ++ out) := by
  have hhead : bitsOfByte (if final then 0x01#8 else 0x00#8) = final :: false :: false :: List.replicate 5 false := by
    cases final <;> decide
  rw [storedBlock, bitsOfBytes_cons, hhead]
  have hstored := inflateStored_storedBlock out hlen (List.length_replicate (n := 5) (a := false)) hrest
  simp only [List.cons_append, inflateBlocks, takeBits, inflateBlock, hstored]
  cases final <;> rfl

/-- The pieces of R237 inflate to their bytes, the newest byte first. -/
theorem inflateBlocks_storedBlocks (window k : Nat) {fuel : Nat} {bytes : List Byte} {rest : List Bool}
    (out : List Byte) (hk : bytes.length ≤ 65535 * (k + 1)) (hfuel : k < fuel) (hrest : rest.length % 8 = 0) :
    inflateBlocks window fuel (bitsOfBytes (storedBlocks k bytes) ++ rest) out = some (bytes.reverse ++ out, rest) := by
  obtain ⟨fuel, rfl⟩ := Nat.exists_eq_succ_of_ne_zero (Nat.ne_zero_of_lt hfuel)
  induction k generalizing bytes out fuel with
  | zero => rw [storedBlocks, inflateBlocks_storedBlock _ _ _ _ (by omega) hrest, if_pos rfl]
  | succ k ih =>
    rw [storedBlocks]
    split
    next hlast => rw [inflateBlocks_storedBlock _ _ _ _ hlast hrest, if_pos rfl]
    next hmore =>
      have hpiece : (bytes.take 65535).length ≤ 65535 := List.length_take_le ..
      obtain ⟨fuel, rfl⟩ := Nat.exists_eq_succ_of_ne_zero (show fuel ≠ 0 by omega)
      rw [bitsOfBytes_append, List.append_assoc, inflateBlocks_storedBlock _ _ _ _ hpiece,
        if_neg Bool.false_ne_true, ih]
      · rw [← List.append_assoc, ← List.reverse_append, List.take_append_drop]
      · rw [List.length_drop]; omega
      · omega
      · rw [List.length_append, bitsOfBytes_length]; omega

theorem storedBlocks_length {k : Nat} {bytes : List Byte} (hk : bytes.length ≤ 65535 * (k + 1)) :
    (storedBlocks k bytes).length = bytes.length + 5 * max 1 ((bytes.length + 65534) / 65535) := by
  have hblock (final : Bool) (piece : List Byte) : (storedBlock final piece).length = piece.length + 5 := by
    simp [storedBlock]
    omega
  induction k generalizing bytes with
  | zero => rw [storedBlocks, hblock]; omega
  | succ k ih =>
    rw [storedBlocks]
    split
    next hlast => rw [hblock]; omega
    next hmore =>
      rw [List.length_append, hblock, List.length_take, ih (by rw [List.length_drop]; omega), List.length_drop]
      omega

/-! ### The compressors (R236, R237) -/

theorem compressRef_length (bytes : List Byte) :
    (compressRef bytes).length = 6 + bytes.length + 5 * max 1 ((bytes.length + 65534) / 65535) := by
  rw [compressRef, List.length_append, List.length_append, storedBlocks_length (by omega)]
  simp only [List.length_cons, List.length_nil, u32be_length]
  omega

/-- COMPRESS_REF keeps law Z2. -/
theorem inflateZlib_compressRef (bytes : List Byte) : inflateZlib (compressRef bytes) = some bytes := by
  have hblocks := inflateBlocks_storedBlocks (zlibWindow 0x78#8) (bytes.length / 65535) (bytes := bytes)
    (fuel := (bitsOfBytes (storedBlocks (bytes.length / 65535) bytes ++ u32be (adler32 bytes))).length) []
    (rest := bitsOfBytes (u32be (adler32 bytes))) (by omega)
    (by rw [bitsOfBytes_length, List.length_append, storedBlocks_length (by omega)]; omega)
    (by rw [bitsOfBytes_length, u32be_length])
  have hcheck := takeBytes_bitsOfBytes (u32be (adler32 bytes)) []
  rw [← bitsOfBytes_append, List.append_nil] at hblocks
  rw [u32be_length, List.append_nil] at hcheck
  have hheader : zlibHeaderOk 0x78#8 0x01#8 = true := by decide
  have haligned : (bitsOfBytes (u32be (adler32 bytes))).length % 8 = 0 := by rw [bitsOfBytes_length, u32be_length]
  rw [compressRef, List.append_assoc, List.cons_append, List.cons_append, List.nil_append, inflateZlib, if_pos hheader]
  simp only [hblocks, haligned, List.drop_zero, hcheck, List.reverse_reverse, if_true]

/-! ### The decoder consumes bits (R236): what it leaves is a suffix of what it was given -/

theorem takeBits_suffix {n : Nat} {bits rest : List Bool} {v : Nat} (h : takeBits n bits = some (v, rest)) :
    rest <:+ bits := by
  fun_induction takeBits n bits generalizing v with
  | case1 => cases h; exact List.suffix_refl _
  | case2 => cases h
  | case3 n b bits w rest' hn ih => cases h; exact (ih hn).trans (List.suffix_cons b bits)
  | case4 => cases h

theorem takeBytes_suffix {n : Nat} {bits rest : List Bool} {bytes : List Byte}
    (h : takeBytes n bits = some (bytes, rest)) : rest <:+ bits := by
  fun_induction takeBytes n bits generalizing bytes rest with
  | case1 => cases h; exact List.suffix_refl _
  | case2 => cases h
  | case3 => cases h
  | case4 n bits v afterByte hv bytes' rest' hbytes ih =>
    cases h
    exact (ih hbytes).trans (takeBits_suffix hv)

theorem huffmanSymbol_suffix {lens : List Nat} {fuel len code first : Nat} {bits rest : List Bool} {s : Nat}
    (h : huffmanSymbol lens fuel len code first bits = some (s, rest)) : rest <:+ bits := by
  fun_induction huffmanSymbol lens fuel len code first bits with
  | case1 => cases h
  | case2 => cases h
  | case3 => cases h; exact List.suffix_cons _ _
  | case4 => cases h
  | case5 len code first fuel b bits hcode ih => exact (ih h).trans (List.suffix_cons b bits)

theorem takeSymbol_suffix {lens : List Nat} {bits rest : List Bool} {s : Nat}
    (h : takeSymbol lens bits = some (s, rest)) : rest <:+ bits := huffmanSymbol_suffix h

theorem takeExtra_suffix {code : Option (Nat × Nat)} {bits rest : List Bool} {v : Nat}
    (h : takeExtra code bits = some (v, rest)) : rest <:+ bits := by
  unfold takeExtra at h
  split at h
  next => cases h
  next =>
    split at h
    next => cases h
    next hextra => cases h; exact takeBits_suffix hextra

theorem inflateSymbols_suffix {window : Nat} {lit dist : List Nat} {fuel : Nat} {bits rest : List Bool}
    {out out' : List Byte} (h : inflateSymbols window lit dist fuel bits out = some (out', rest)) :
    rest <:+ bits := by
  induction fuel generalizing bits out with
  | zero => cases h
  | succ fuel ih =>
    -- Stated by `change`: deriving the equations of `inflateSymbols` fails at its literal 256.
    change (match takeSymbol lit bits with | none => none | some (s, rest) => _) = _ at h
    split at h
    next => cases h
    next s afterSymbol hs =>
      refine List.IsSuffix.trans ?_ (takeSymbol_suffix hs)
      split at h
      next => exact ih h
      next =>
        split at h
        next => cases h; exact List.suffix_refl _
        next =>
          split at h
          next => cases h
          next hlen =>
            refine List.IsSuffix.trans ?_ (takeExtra_suffix hlen)
            split at h
            next => cases h
            next hdist =>
              refine List.IsSuffix.trans ?_ (takeSymbol_suffix hdist)
              split at h
              next => cases h
              next hback =>
                refine List.IsSuffix.trans ?_ (takeExtra_suffix hback)
                split at h
                next =>
                  split at h
                  next => cases h
                  next => exact ih h
                next => cases h

theorem takeTriples_suffix {n : Nat} {bits rest : List Bool} {vs : List Nat}
    (h : takeTriples n bits = some (vs, rest)) : rest <:+ bits := by
  fun_induction takeTriples n bits generalizing vs rest with
  | case1 => cases h; exact List.suffix_refl _
  | case2 => cases h
  | case3 => cases h
  | case4 n bits v afterTriple hv vs' rest' htriples ih =>
    cases h
    exact (ih htriples).trans (takeBits_suffix hv)

theorem takeLengths_suffix {cl : List Nat} {total fuel : Nat} {bits rest : List Bool} {acc lens : List Nat}
    (h : takeLengths cl total fuel bits acc = some (lens, rest)) : rest <:+ bits := by
  fun_induction takeLengths cl total fuel bits acc with
  | case2 => cases h; exact List.suffix_refl _
  | _ => grind [→ takeSymbol_suffix, → takeBits_suffix, List.IsSuffix.trans]

theorem inflateStored_suffix {bits rest : List Bool} {out out' : List Byte}
    (h : inflateStored bits out = some (out', rest)) : rest <:+ bits := by
  unfold inflateStored at h
  grind [→ takeBytes_suffix, → takeBits_suffix, List.IsSuffix.trans, List.drop_suffix]

theorem takeCodes_suffix {nlit ndist nclen : Nat} {bits rest : List Bool} {codes : List Nat × List Nat}
    (h : takeCodes nlit ndist nclen bits = some (codes, rest)) : rest <:+ bits := by
  unfold takeCodes at h
  grind [→ takeTriples_suffix, → takeLengths_suffix, List.IsSuffix.trans]

theorem inflateDynamic_suffix {window : Nat} {bits rest : List Bool} {out out' : List Byte}
    (h : inflateDynamic window bits out = some (out', rest)) : rest <:+ bits := by
  unfold inflateDynamic at h
  split at h
  next => cases h
  next hlit =>
    refine List.IsSuffix.trans ?_ (takeBits_suffix hlit)
    split at h
    next => cases h
    next hdist =>
      refine List.IsSuffix.trans ?_ (takeBits_suffix hdist)
      split at h
      next => cases h
      next hclen =>
        refine List.IsSuffix.trans ?_ (takeBits_suffix hclen)
        split at h
        next => cases h
        next hcodes => exact (inflateSymbols_suffix h).trans (takeCodes_suffix hcodes)

theorem inflateBlock_suffix {window btype : Nat} {bits rest : List Bool} {out out' : List Byte}
    (h : inflateBlock window btype bits out = some (out', rest)) : rest <:+ bits := by
  unfold inflateBlock at h
  grind [→ inflateStored_suffix, → inflateSymbols_suffix, → inflateDynamic_suffix]

theorem inflateBlocks_suffix {window fuel : Nat} {bits rest : List Bool} {out out' : List Byte}
    (h : inflateBlocks window fuel bits out = some (out', rest)) : rest <:+ bits := by
  fun_induction inflateBlocks window fuel bits out with
  | case5 | case6 => grind [→ takeBits_suffix, → inflateBlock_suffix, List.IsSuffix.trans]
  | _ => cases h

theorem takeBits_length {n : Nat} {bits rest : List Bool} {v : Nat} (h : takeBits n bits = some (v, rest)) :
    bits.length = n + rest.length := by
  fun_induction takeBits n bits generalizing v with
  | case1 => cases h; rw [Nat.zero_add]
  | case2 => cases h
  | case3 n b bits w rest' hn ih => cases h; rw [List.length_cons, ih hn]; omega
  | case4 => cases h

theorem takeBytes_length {n : Nat} {bits rest : List Bool} {bytes : List Byte}
    (h : takeBytes n bits = some (bytes, rest)) : bits.length = 8 * n + rest.length := by
  fun_induction takeBytes n bits generalizing bytes rest with
  | case1 => cases h; rw [Nat.mul_zero, Nat.zero_add]
  | case2 => cases h
  | case3 => cases h
  | case4 n bits v afterByte hv bytes' rest' hbytes ih =>
    cases h
    rw [takeBits_length hv, ih hbytes]
    omega

/-- A zlib stream holds its two header bytes and the four of its checksum (R236 Z3). -/
theorem length_of_inflateZlib {stream bytes : List Byte} (h : inflateZlib stream = some bytes) :
    6 ≤ stream.length := by
  unfold inflateZlib at h
  split at h
  next cmf flg body =>
    split at h
    next =>
      split at h
      next => cases h
      next out rest hblocks =>
        split at h
        next check hcheck =>
          have hrest := (inflateBlocks_suffix hblocks).length_le
          have hchecksum := takeBytes_length hcheck
          rw [bitsOfBytes_length] at hrest
          rw [List.length_drop, List.length_nil] at hchecksum
          simp only [List.length_cons]
          omega
        next => cases h
    next => cases h
  next => cases h

/-- Every compressor keeps law Z2: a raw stream that does not inflate to its input is replaced by COMPRESS_REF's. -/
theorem inflateZlib_compressOf (i : Impl) (bytes : List Byte) : inflateZlib (compressOf i bytes) = some bytes := by
  cases i with
  | reference => exact inflateZlib_compressRef bytes
  | other k =>
    rw [compressOf]
    obtain ⟨hinflates, hraw⟩ | ⟨-, href⟩ := lawfulStream_cases (Config.compressRaw k bytes) bytes
    · rw [hraw, hinflates]
    · rw [href, inflateZlib_compressRef]

/-- Settles O47: law Z2 holds for both kinds of compressor, and Z3 follows from it. -/
theorem compressedStreamInflates : Obligations.CompressedStreamInflates := fun i bytes =>
  ⟨inflateZlib_compressOf i bytes, length_of_inflateZlib (inflateZlib_compressOf i bytes), compressRef_length bytes⟩

/-! ### The container (R232 to R235) -/

/-- The checksum of R134, each shift of its register spelled out. -/
theorem crc32_eq_foldl (bytes : List Byte) :
    crc32 bytes =
      bytes.foldl
        (fun c b => (List.range 8).foldl
          (fun c _ => if c.getLsbD 0 then (c >>> 1) ^^^ 0xEDB88320#32 else c >>> 1) (c ^^^ b.setWidth 32))
        0xFFFFFFFF#32 ^^^ 0xFFFFFFFF#32 := rfl

/-- The 12 bytes of the end chunk (R235). -/
theorem chunk_IEND :
    chunk tagIEND [] =
      [0x00#8, 0x00#8, 0x00#8, 0x00#8, 0x49#8, 0x45#8, 0x4E#8, 0x44#8, 0xAE#8, 0x42#8, 0x60#8, 0x82#8] := by
  have hcrc : crc32 (tagIEND ++ []) = 0xAE426082#32 := by decide +kernel
  rw [chunk, hcrc]
  rfl

theorem chunk_length (tag payload : List Byte) : (chunk tag payload).length = 8 + tag.length + payload.length := by
  simp only [chunk, List.length_append, u32be_length]
  omega

theorem ihdr_length (w h : Nat) : (ihdr w h).length = 13 := by
  simp [ihdr]

theorem pngContainer_length (w h : Nat) (z : List Byte) : (pngContainer w h z).length = 57 + z.length := by
  simp only [pngContainer, List.length_append, chunk_length, ihdr_length]
  simp [pngSignature, tagIHDR, tagIDAT, tagIEND]
  omega

theorem pngBytes_length (s : State) :
    (pngBytes s).length = 57 + (compressOf s.build.compress (pngRaw s)).length := pngContainer_length _ _ _

/-- The container, written out (R232 to R235). -/
theorem pngContainer_eq (w h : Nat) (z : List Byte) :
    pngContainer w h z =
      [0x89#8, 0x50#8, 0x4E#8, 0x47#8, 0x0D#8, 0x0A#8, 0x1A#8, 0x0A#8] ++ [0x00#8, 0x00#8, 0x00#8, 0x0D#8] ++
        (tagIHDR ++ ihdr w h) ++ u32be (crc32 (tagIHDR ++ ihdr w h)).toNat ++ u32be z.length ++ (tagIDAT ++ z) ++
        u32be (crc32 (tagIDAT ++ z)).toNat ++
        [0x00#8, 0x00#8, 0x00#8, 0x00#8, 0x49#8, 0x45#8, 0x4E#8, 0x44#8, 0xAE#8, 0x42#8, 0x60#8, 0x82#8] := by
  have hlength : u32be (ihdr w h).length = [0x00#8, 0x00#8, 0x00#8, 0x0D#8] := by rw [ihdr_length]; rfl
  rw [pngContainer, chunk_IEND, chunk, chunk, hlength]
  simp only [pngSignature, List.append_assoc]

/-! ### The validation of PNGE (R231), by value -/

/-- The five checks as one list (R231). -/
theorem pngeCheck_eq_firstFault (s : State) :
    pngeCheck s =
      firstFault
        [(decide (s.pixLen.toNat = s.pixW.toNat * s.pixH.toNat * 4), invariantFault s.pixLen),
          (decide (1 ≤ s.pixW.toNat), badParam 0x078), (decide (1 ≤ s.pixH.toNat), badParam 0x080),
          (decide (s.pixLen.toNat ≤ s.build.caps.maxPix), capacityFault 4 s.pixLen.toNat),
          (decide (57 + (compressOf s.build.compress (pngRaw s)).length ≤ s.build.caps.maxOut),
            capacityFault 8 (57 + (compressOf s.build.compress (pngRaw s)).length))] := by
  rw [pngeCheck_eq, pngeSizeChecks, pngBytes_length, pngeScalarChecks, countOk, countOk, Bool.beq_eq_decide_eq]
  rfl

theorem pngeCheck_eq_none_iff (s : State) : pngeCheck s = none ↔ pngeReady s := by
  simp only [pngeCheck_eq_firstFault, firstFault_eq_none, List.forall_mem_cons, List.not_mem_nil, false_imp_iff,
    implies_true, decide_eq_true_eq, and_true, and_assoc]

/-! The two ends of PNGE. -/

theorem exec_pnge_fault {s : State} {f : FaultRecord} (h : pngeCheck s = some f) :
    exec .pnge s = .next (raiseFault f s) := by
  rw [exec_eq, commandCheck, h, runCommand_some]

theorem exec_pnge_ready {s : State} (h : pngeReady s) : exec .pnge s = .next (containerResult (pngBytes s) s) := by
  rw [exec_eq, commandCheck, (pngeCheck_eq_none_iff s).2 h, runCommand_none]
  rfl

theorem exec_pnge_done {s t : State} (h : exec .pnge s = .next t) (hdone : t.done = true) :
    pngeReady s ∧ t = containerResult (pngBytes s) s := by
  obtain ⟨hcheck, rfl⟩ | ⟨f, -, rfl⟩ := exec_cases h
  · exact ⟨(pngeCheck_eq_none_iff s).1 hcheck, rfl⟩
  · cases hdone

/-- Settles O44: the checks before the failing one pass; of a shape that passes, 4·W·H is a 32-bit number. -/
theorem pngeRejectsFirstBadOperand : Obligations.PngeRejectsFirstBadOperand := by
  intro s
  have hlt := s.pixLen.isLt
  refine ⟨fun hlen => ?_, fun hlen hw => ?_, fun hlen hw hh => ?_, fun hshape hcap => ?_,
    fun n hshape hcap hn hout => ?_, fun hshape => ?_⟩
  · refine exec_pnge_fault (f := invariantFault s.pixLen) ?_
    rw [pngeCheck_eq_firstFault, firstFault_fail _ _ hlen]
  · refine exec_pnge_fault (f := badParam 0x078) ?_
    rw [pngeCheck_eq_firstFault, firstFault_pass _ _ hlen, firstFault_fail _ _ (by simp [hw])]
  · refine exec_pnge_fault (f := badParam 0x080) ?_
    rw [pngeCheck_eq_firstFault, firstFault_pass _ _ hlen, firstFault_pass _ _ ((one_le_toNat_iff _).2 hw),
      firstFault_fail _ _ (by simp [hh])]
  · obtain ⟨hlen, hw, hh⟩ := hshape
    rw [← capacityFault_of_lt (by decide) (by omega)]
    refine exec_pnge_fault ?_
    rw [pngeCheck_eq_firstFault, firstFault_pass _ _ hlen, firstFault_pass _ _ hw, firstFault_pass _ _ hh,
      firstFault_fail _ _ (Nat.not_le.2 hcap)]
  · obtain ⟨hlen, hw, hh⟩ := hshape
    subst hn
    rw [← capacityFault_eq _ (by decide)]
    refine exec_pnge_fault ?_
    rw [pngeCheck_eq_firstFault, firstFault_pass _ _ hlen, firstFault_pass _ _ hw, firstFault_pass _ _ hh,
      firstFault_pass _ _ hcap, firstFault_fail _ _ (Nat.not_le.2 hout)]
  · obtain ⟨hlen, hw, hh⟩ := hshape
    have hwArea := Nat.le_mul_of_pos_right s.pixW.toNat hh
    have hhArea := Nat.le_mul_of_pos_left s.pixH.toNat hw
    omega

/-- Settles O43: the container is written out, and its length is within OUT. -/
theorem pngeWritesContainer : Obligations.PngeWritesContainer := by
  rintro s _ _ crc hwf hready hcrc rfl rfl
  obtain rfl : crc = crc32 := hcrc.trans (funext fun bytes => (crc32_eq_foldl bytes).symm)
  have hcap : s.build.caps.maxOut ≤ 2 ^ 25 := tableWords_le hwf .out
  have hlen := pngBytes_length s
  have ⟨_, _, hout⟩ := hready
  refine ⟨containerResult (pngBytes s) s, exec_pnge_ready hready, containerResult_frame _ s, ?_, ?_,
    fun a ha => readByte_containerResult s (by rwa [hlen])⟩
  · rw [containerResult_outLen, hlen, toNat_ofNat_of_le (by omega)]
  · rw [outBytes_containerResult s (by omega), List.drop_zero, ← hlen, List.take_length]
    exact pngContainer_eq ..

/-! ### The image in the container (R240 (b), (c)) -/

theorem beValue_u32be {v : Nat} (h : v < 2 ^ 32) : beValue (u32be v) = v := by
  simp only [beValue, u32be, List.reverse_cons, List.reverse_nil, List.nil_append, List.cons_append, leValue,
    BitVec.toNat_ofNat]
  omega

/-- The stretch of the container that holds the width, the height and the length of the data chunk (R233, R234). -/
theorem pngContainer_fields (w h : Nat) (z : List Byte) :
    ((pngContainer w h z).drop 16).take 4 = u32be w ∧ ((pngContainer w h z).drop 20).take 4 = u32be h ∧
      ((pngContainer w h z).drop 33).take 4 = u32be z.length := by
  simp [pngContainer_eq, ihdr, tagIHDR, u32be]

theorem pngContainer_data (w h : Nat) (z : List Byte) :
    ((pngContainer w h z).drop 41).take z.length = z := by
  simp [pngContainer_eq, ihdr, tagIHDR, tagIDAT, u32be]

/-- Rows of one length stand behind each other, so byte `j` of row `y` stands `y` rows further on. -/
theorem getElem?_flatMap_rows {row : Nat → List Byte} {len : Nat} (hrow : ∀ y, (row y).length = len) {n y j : Nat}
    (hy : y < n) (hj : j < len) : ((List.range n).flatMap row)[y * len + j]? = (row y)[j]? := by
  have hlen (m : Nat) : ((List.range m).flatMap row).length = m * len := by
    simp [List.length_flatMap, hrow]
  obtain ⟨rest, hrange⟩ := exists_range_eq_append_cons hy
  rw [hrange, List.flatMap_append, List.flatMap_cons, List.getElem?_append_right (by rw [hlen]; omega), hlen,
    Nat.add_sub_cancel_left, List.getElem?_append_left (by rwa [hrow])]

theorem rasterRow_length (s : State) (y : Nat) : (rasterRow s y).length = 1 + 4 * s.pixW.toNat := by
  simp [rasterRow]
  omega

theorem rasterRaw_length (s : State) : (rasterRaw s).length = s.pixH.toNat * (1 + 4 * s.pixW.toNat) := by
  simp [rasterRaw, List.length_flatMap, rasterRow_length]

/-- Row `y` of RAW is the filter byte 0 and the pixel bytes of the row (R235). -/
theorem getElem?_rasterRaw (s : State) {y b : Nat} (hy : y < s.pixH.toNat) (hb : b < 4 * s.pixW.toNat) :
    (rasterRaw s)[y * (1 + 4 * s.pixW.toNat)]? = some 0x00#8 ∧
      (rasterRaw s)[y * (1 + 4 * s.pixW.toNat) + 1 + b]? = some (pixByte s (y * 4 * s.pixW.toNat + b)) := by
  have hbyte {j : Nat} (hj : j < 1 + 4 * s.pixW.toNat) := getElem?_flatMap_rows (rasterRow_length s) hy hj
  refine ⟨hbyte (j := 0) (by omega), ?_⟩
  rw [Nat.add_assoc, rasterRaw, hbyte (by omega), rasterRow, Nat.add_comm 1 b, List.getElem?_cons_succ,
    List.getElem?_map, List.getElem?_range hb, Option.map_some]

/-- Settles O46: the fields and the data chunk are stretches of the container; by law Z2 the data inflates to RAW. -/
theorem pngePixelsRecoverable : Obligations.PngePixelsRecoverable := by
  intro s t hwf hexec hdone
  obtain ⟨hready, rfl⟩ := exec_pnge_done hexec hdone
  have hcap : s.build.caps.maxOut ≤ 2 ^ 25 := tableWords_le hwf .out
  have ⟨_, _, hout⟩ := hready
  have hlen := pngBytes_length s
  have hstretch {off n : Nat} (h : off + n ≤ (pngBytes s).length) := outBytes_containerResult s h
  obtain ⟨hw, hh, hz⟩ :=
    pngContainer_fields s.pixW.toNat s.pixH.toNat (compressOf s.build.compress (rasterRaw s))
  have hsize : beValue (outBytes (containerResult (pngBytes s) s) 33 4) =
      (compressOf s.build.compress (pngRaw s)).length := by
    rw [hstretch (by omega), pngBytes, hz]
    exact beValue_u32be (v := (compressOf s.build.compress (pngRaw s)).length) (by omega)
  rw [hsize]
  refine ⟨?_, ?_, ?_, rasterRaw s, ?_, rasterRaw_length s, fun y b hy hb => getElem?_rasterRaw s hy hb⟩
  · rw [hstretch (by omega), pngBytes, hw, beValue_u32be s.pixW.isLt]
  · rw [hstretch (by omega), pngBytes, hh, beValue_u32be s.pixH.isLt]
  · rw [containerResult_outLen, hlen, toNat_ofNat_of_le (by omega)]
  · rw [hstretch (by omega), pngBytes]
    exact (congrArg inflateZlib (pngContainer_data ..)).trans (inflateZlib_compressOf ..)

end Sys2Proof.Machine

/-! PROOFS. The life of a command (`60_exceptions.md`) and reset (`70_reset_and_hazards.md`): acceptance, the two ends
of a command, which commands raise which fault, the return from a fault, and what a reset leaves. -/

namespace Sys2Proof.Machine

/-! ### STATUS as a number (R23) -/

theorem toNat_append_eq {v w : Nat} (x : BitVec v) (y : BitVec w) :
    (x ++ y).toNat = 2 ^ w * x.toNat + y.toNat := by
  rw [BitVec.toNat_append, Nat.shiftLeft_eq, Nat.mul_comm, Nat.two_pow_add_eq_or_of_lt y.isLt]

theorem toNat_statusWord (s : State) :
    (statusWord s).toNat = 256 * s.fcode.toNat + 4 * s.fault.toNat + 2 * s.done.toNat + (busy s).toNat := by
  simp only [statusWord, toNat_append_eq, BitVec.toNat_ofBool, BitVec.toNat_ofNat]
  omega

/-- STATUS of a block that is not BUSY and has taken the fault `f` (R253). -/
theorem statusWord_raiseFault (f : FaultRecord) (s : State) :
    statusWord (raiseFault f s) = BitVec.ofNat 64 (256 * f.code.toNat + 4) := by
  have hcode := f.code.isLt
  apply BitVec.eq_of_toNat_eq
  rw [toNat_statusWord, BitVec.toNat_ofNat]
  simp [busy]
  omega

/-- STATUS of a block that has ended a command with no fault record (R252). -/
theorem statusWord_finish {s : State} (hfault : s.fault = false) (hcode : s.fcode = 0) :
    statusWord (finish s) = 0x0002#64 := by
  apply BitVec.eq_of_toNat_eq
  rw [toNat_statusWord]
  simp [busy, hfault, hcode]

/-! ### Acceptance (R251) -/

/-- A write to CMD of an idle block without a fault is an acceptance (R72, R77). -/
theorem busWrite_cmd {s : State} (d : Word) (hidle : s.running = none) (hfault : s.fault = false) :
    busWrite 0x00000000#32 d s = some (accept d s) := by
  refine (busWrite_of_locate_reg d (by simp [busy, hidle]) (locate_regOffset _ .cmd)).trans ?_
  simp [busWriteReg, regAccess, hfault]

theorem hostEvent_write_cmd {s : State} (d : Word) (hidle : s.running = none) (hfault : s.fault = false) :
    hostEvent (.write 0x00000000#32 d) s = { accept d s with answer := some .ok } :=
  hostEvent_write_ok (busWrite_cmd d hidle hfault)

/-- Settles O6: the write is an acceptance, and bits 0 to 2 of the STATUS it leaves are BUSY alone. -/
theorem commandWordAccepted : Obligations.CommandWordAccepted := by
  intro s d hidle hfault
  rw [hostEvent_write_cmd d hidle hfault]
  refine ⟨rfl, BitVec.eq_of_toNat_eq ?_⟩
  rw [BitVec.extractLsb'_toNat, toNat_statusWord]
  simp [busy, hfault]
  omega

/-! ### The step of an accepted word (R250, R259) -/

/-- Settles O4: the block moves next, and the word is the command's. -/
theorem stepRunsDecodedCommand : Obligations.StepRunsDecodedCommand := by
  intro s d i hruns hdecode
  simp [step, nextMove_command hruns, hdecode]

theorem step_illegal {s : State} {d : Word} {x : DecodeReject} (hruns : runsNext s d) (hdecode : decode d = .error x) :
    step s = .next (raiseFault (illegalCmd d) s) := by
  simp [step, nextMove_command hruns, hdecode]

/-- A word that is none of the legal ones is rejected by the decoder (R101). -/
theorem exists_decode_error {d : Word}
    (h : d.extractLsb' 8 56 ≠ 0 ∨ (d.extractLsb' 0 8).toNat = 0 ∨ 9 < (d.extractLsb' 0 8).toNat) :
    ∃ x, decode d = .error x := by
  by_cases hrsv : d.extractLsb' 8 56 = 0
  · have hopc := h.resolve_left (not_not_intro hrsv)
    exact ⟨_, decode_of_unassigned hrsv (by omega)⟩
  · exact ⟨_, decode_of_reserved_ne_zero hrsv⟩

/-- Settles O7: the host's move is the acceptance of O6; the host then waits, so the block meets the word, which the
decoder rejects. -/
theorem illegalWordFaults : Obligations.IllegalWordFaults := by
  intro s d b rest hidle hfault hin hwaits hillegal
  obtain ⟨x, hdecode⟩ := exists_decode_error hillegal
  have haccept := hostMoveIsOneStep s (.write 0x00000000#32 d) b rest hin (.inl hidle)
  rw [hostEvent_write_cmd d (s := { s with inputs := rest }) hidle hfault] at haccept
  refine ⟨_, _, haccept, rfl, rfl, step_illegal ⟨rfl, hwaits⟩ hdecode, ?_, statusWord_raiseFault _ _⟩
  simp only [raiseFault, illegalCmd, accept, hidle]

/-! ### The two ends of a command (R252, R253) -/

/-- The effect of a command writes no part of the fault record (R252). -/
theorem commandEffect_faultRecord (i : Instr) (s : State) :
    (commandEffect i s).fault = s.fault ∧ (commandEffect i s).fcode = s.fcode ∧
      (commandEffect i s).finfo = s.finfo := by
  have hresults := resultsOnly_commandEffect i s
  rw [resultsOnly] at hresults
  rw [hresults]
  exact ⟨rfl, rfl, rfl⟩

/-- Settles O8: a validation that passes leads to the effect, which writes no part of the fault record; one that fails
raises its own code. -/
theorem commandEndsOneWay : Obligations.CommandEndsOneWay := by
  intro i s
  rw [exec_eq]
  obtain ⟨-, hend⟩ | ⟨f, hcheck, hend⟩ := runCommand_cases (commandCheck i s) (commandEffect i) s
  · obtain ⟨hfault, hcode, hinfo⟩ := commandEffect_faultRecord i s
    exact ⟨_, hend, .inl ⟨rfl, rfl, hfault, hcode, hinfo,
      fun hnone hzero => statusWord_finish (hfault.trans hnone) (hcode.trans hzero)⟩⟩
  · obtain ⟨hlow, hhigh⟩ := commandCheck_code hcheck
    exact ⟨_, hend, .inr ⟨f.code, f.info, hlow, hhigh, rfl, statusWord_raiseFault f s⟩⟩

/-! ### Which command raises which fault (R256 to R258) -/

theorem mem_of_firstFault {l : List (Bool × FaultRecord)} {f : FaultRecord} (h : firstFault l = some f) :
    (false, f) ∈ l := by
  obtain ⟨pre, post, rfl, -⟩ := firstFault_eq_some.1 h
  simp

/-- BAD_PARAM or CAPACITY, the faults that are not one command's own. -/
def operandFault (f : FaultRecord) : Prop :=
  (∃ addr, f = badParam addr) ∨ ∃ id n, f = capacityFault id n

@[simp] theorem operandFault_badParam (addr : Nat) : operandFault (badParam addr) := .inl ⟨addr, rfl⟩

@[simp] theorem operandFault_capacityFault (id n : Nat) : operandFault (capacityFault id n) := .inr ⟨id, n, rfl⟩

theorem code_ne_of_operandFault {f : FaultRecord} (h : operandFault f) : f.code ≠ 3 := by
  obtain ⟨addr, rfl⟩ | ⟨id, n, rfl⟩ := h
  · simp [badParam]
  · simp [capacityFault]

theorem operandFault_firstFault {l : List (Bool × FaultRecord)} (hl : ∀ c ∈ l, operandFault c.2)
    {f : FaultRecord} (h : firstFault l = some f) : operandFault f :=
  hl _ (mem_of_firstFault h)

/-- Of the checks of PNGE only the first one raises INVARIANT (R231, R257). -/
theorem pngeCheck_fault {s : State} {f : FaultRecord} (h : pngeCheck s = some f) :
    operandFault f ∨ (s.pixLen.toNat ≠ s.pixW.toNat * s.pixH.toNat * 4 ∧ f = invariantFault s.pixLen) := by
  rw [pngeCheck_eq_firstFault] at h
  by_cases hlen : s.pixLen.toNat = s.pixW.toNat * s.pixH.toNat * 4
  · rw [firstFault_pass _ _ hlen] at h
    exact .inl (operandFault_firstFault (by simp) h)
  · rw [firstFault_fail _ _ hlen] at h
    exact .inr ⟨hlen, (Option.some.inj h).symm⟩

/-- What a failing validation raises: a fault of the operands, or INVARIANT by PNGE. -/
theorem commandCheck_fault {i : Instr} {s : State} {f : FaultRecord} (h : commandCheck i s = some f) :
    operandFault f ∨
      (i = .pnge ∧ s.pixLen.toNat ≠ s.pixW.toNat * s.pixH.toNat * 4 ∧ f = invariantFault s.pixLen) := by
  cases i with
  | env | kick | snare | hat | pcmw => exact .inl (operandFault_firstFault (by simp) h)
  | tone =>
    rw [commandCheck, toneCheck_eq] at h
    refine .inl (operandFault_firstFault ?_ h)
    simp only [toneScalarChecks, toneNoteChecks, toneSizeChecks, List.forall_mem_append, List.forall_mem_flatMap]
    simp
  | seq =>
    rw [commandCheck, seqCheck_eq] at h
    refine .inl (operandFault_firstFault ?_ h)
    simp only [seqScalarChecks, seqNoteChecks, seqSizeChecks, seqOnsetChecks, List.forall_mem_append,
      List.forall_mem_map]
    simp
  | pnge => exact (pngeCheck_fault h).imp_right (And.intro rfl)
  | seed => cases h

/-- Settles O45: a command that ends with DONE = 0 has faulted, and no fault of the operands has code 3. -/
theorem invariantOnlyFromPnge : Obligations.InvariantOnlyFromPnge := by
  intro i s t hexec hdone hcode
  obtain ⟨-, rfl⟩ | ⟨f, hcheck, rfl⟩ := exec_cases hexec
  · cases hdone
  · obtain hoperand | ⟨rfl, hlen, rfl⟩ := commandCheck_fault hcheck
    · exact absurd hcode (code_ne_of_operandFault hoperand)
    · exact ⟨rfl, hlen, rfl⟩

/-! ### The return from a fault (R23, R264) -/

theorem writeStatus_eq (d : Word) (s : State) :
    writeStatus d s =
      { s with
        done := s.done && !d.getLsbD 1
        fault := s.fault && !d.getLsbD 2
        fcode := if d.getLsbD 2 then 0 else s.fcode
        finfo := if d.getLsbD 2 then 0 else s.finfo } := by
  unfold writeStatus
  cases d.getLsbD 2 <;> simp [clearFault]

/-- Settles O9: an idle block takes the write, and only the answer comes on top. -/
theorem statusWriteClears : Obligations.StatusWriteClears := by
  intro s d hidle
  rw [hostEvent_write_ok (busWrite_status d hidle), writeStatus_eq]

/-! ### Reset (R53, R280, R281) -/

/-- No register shows what a reset keeps: the parameters, the host's moves and the count of resets. -/
theorem readReg_resetBlock (s : State) (r : Reg) : readReg (resetBlock s) r = readReg State.reset r := by
  cases r <;> rfl

theorem readReg_reset {r : Reg} (h : r ≠ .id) : readReg State.reset r = 0 := by
  cases r with
  | id => exact absurd rfl h
  | _ => rfl

/-- A reset leaves no table byte written (R54; log 8). -/
theorem readByte_resetBlock (s : State) (a : Nat) : readByte (resetBlock s) a = Config.unwritten (s.resets + 1) a :=
  rfl

/-- Settles O10: the registers read as those of `State.reset`. -/
theorem resetLeavesResetValues : Obligations.ResetLeavesResetValues := by
  refine ⟨?_, fun s => ⟨rfl, readByte_resetBlock s⟩⟩
  rintro s t (rfl | rfl)
  · exact ⟨fun r hr => (readReg_resetBlock s r).trans (readReg_reset hr), rfl, rfl, rfl, rfl, rfl⟩
  · exact ⟨fun r hr => readReg_reset hr, rfl, rfl, rfl, rfl, rfl⟩

end Sys2Proof.Machine
